-- ==== Sys2Proof/Word.lean ====
section
/-! DEFINITION. The two word types of the block (R9 of spec/00_scope.md): a byte is 8 bits, a word is 16 bits, both unsigned. -/

namespace Sys2Proof

/-- A byte, 8 bits (R9). -/
abbrev Byte := BitVec 8

/-- A word, 16 bits (R9): an integrity code, or a word of program memory. -/
abbrev Word := BitVec 16

end Sys2Proof
end

