-- ==== Sys2Proof/Config.lean ====
section
/-! DEFINITION. The parameters of the block (R7 of spec/00_scope.md) and the free values of what the spec leaves unspecified.
Quantities computed from the parameters stand in Machine/Params.lean. -/

namespace Sys2Proof

/-- The implementation parameters of R7. `BLOCK` is the constant 128 and `BUF_SIZE` is derived (Machine/Params.lean).
DESIGN CHOICE (log 1): the record stands in `State`, so that every claim is over every configuration. -/
structure Config where
  /-- `PAGE_SIZE`: 64 or a positive multiple of 128. -/
  pageSize : Nat
  /-- `ADDR_WIDTH`: bits of a program-memory byte address, at least 8. -/
  addrWidth : Nat
  /-- `NVM_SIZE`: bytes of program memory. -/
  nvmSize : Nat
  /-- `APP_BASE`: first byte address of the application region. -/
  appBase : Nat
  /-- `APP_LIMIT`: first byte address past the application region. -/
  appLimit : Nat
  /-- `CRC_POLY`: generator polynomial, x^16 implicit. -/
  crcPoly : Word
  /-- `CRC_INIT`: start value of the code. -/
  crcInit : Word
  /-- `ERASED_BYTE`: what every byte of an erased page holds. -/
  erasedByte : Byte
  deriving DecidableEq, Repr

/-- The configuration of `Machine.State.reset`: the values the vectors of spec/95_test_vectors.md use, page size 128.
DESIGN CHOICE, unsafe (log 1); the polynomial, the start value and the erased byte are general knowledge that the spec itself
marks (R7; PRESUMED, log 2). -/
def Config.standard : Config where
  pageSize := 128
  addrWidth := 16
  nvmSize := 0x8000
  appBase := 0x0000
  appLimit := 0x7000
  crcPoly := 0x1021
  crcInit := 0x0000
  erasedByte := 0xFF

/-- What an unspecified value stands for: the place it is read from, or the register a reset leaves it in. -/
inductive FreePlace where
  | bufByte (i : Nat)
  | pwbWord (i : Nat)
  | nvmByte (a : Nat)
  | rxHi | rxLo | crcv | ppAddr | ppSrc | widx | savedIe
  deriving DecidableEq, Repr

/-- The unspecified values of the spec (U4, U6, U8, U17 of spec/93_implementation_defined.md), as one uninterpreted constant:
the value of width `w` at place `p` in the draw numbered `draw`. It has no body, so no proof sees which value it is
(DESIGN CHOICE, safe: log 5). -/
opaque Config.freeValue (w : Nat) (p : FreePlace) (draw : Nat) : BitVec w

end Sys2Proof
end

