-- ==== Sys2Proof/Machine/Params.lean ====
section
/-! DEFINITION. The quantities the spec derives from the parameters (R7, R8, R16, R105), and the constraints of R7. -/

namespace Sys2Proof

/-- `BLOCK`, the payload bytes of a packet (R7). -/
def blockSize : Nat := 128

/-- `BUF_SIZE = max(PAGE_SIZE, 128)` (R7, R8). -/
def Config.bufSize (c : Config) : Nat := max c.pageSize blockSize

/-- Words of a page, `PAGE_SIZE/2` (R8). -/
def Config.pageWords (c : Config) : Nat := c.pageSize / 2

/-- `n_pages` of R105: the pages one flush commits. -/
def Config.nPages (c : Config) : Nat := if c.pageSize < blockSize then 2 else 1

/-- The least width that holds the number `n`, for `n` at least 1 (R16). -/
def widthFor (n : Nat) : Nat := Nat.log2 n + 1

/-- `WOFF_W` (R16): the least width that can hold the number `BUF_SIZE`. -/
def Config.woffWidth (c : Config) : Nat := widthFor c.bufSize

/-- The width of `WIDX` (R21), wide enough to hold `PAGE_SIZE/2`. -/
def Config.widxWidth (c : Config) : Nat := widthFor c.pageWords

/-- The constraints of R7. A configuration that breaks one is refused (R188). -/
def Config.admitted (c : Config) : Bool :=
  (c.pageSize == 64 || (0 < c.pageSize && c.pageSize % 128 == 0)) &&
  8 ≤ c.addrWidth &&
  (c.nvmSize % c.pageSize == 0 && c.nvmSize ≤ 2 ^ c.addrWidth) &&
  c.appBase % c.pageSize == 0 &&
  (c.appLimit % c.pageSize == 0 && c.appBase < c.appLimit && c.appLimit < c.nvmSize)

/-- A page start address (R151): a multiple of `PAGE_SIZE`, below `NVM_SIZE`. -/
def Config.isPageAddr (c : Config) (a : Nat) : Bool := a % c.pageSize == 0 && a < c.nvmSize

/-- A fill offset (R152): even, 0 to `PAGE_SIZE - 2`. -/
def Config.isFillOffset (c : Config) (o : Nat) : Bool := o % 2 == 0 && o + 2 ≤ c.pageSize

/-- A slice of `n` bytes of the receive buffer starting at `lo` exists (R27). -/
def Config.inBuf (c : Config) (lo n : Nat) : Bool := lo + n ≤ c.bufSize

/-- `+` on a register of width `w`, modulo `2^w` (R9). -/
def addMod (w a b : Nat) : Nat := (a + b) % 2 ^ w

/-- `-` on a register of width `w`, modulo `2^w` (R9). -/
def subMod (w a b : Nat) : Nat := (a + (2 ^ w - b % 2 ^ w)) % 2 ^ w

end Sys2Proof
end

