-- ==== Sys2Proof/Syntax.lean ====
section
/-! DEFINITION. What the spec calls instructions (R2, R60): the eleven rows of spec/opcode_table.json, one constructor each. -/

namespace Sys2Proof

/-- The instructions of R60. The operands are the fields R62 and R65 give and the operands R80 and R130 name; a field that R65
calls ignored (the data of an erase, the address of a restore) is no operand, and the encoder writes it as zeros (log 18). -/
inductive Instr where
  /-- `SOH` (R62, R116): a data packet received. `payload` is the 128 data bytes, first byte first. -/
  | soh (seq cmp : Byte) (payload : List Byte) (crcHi crcLo : Byte)
  /-- `EOT` (R63, R117): end of transmission received. -/
  | eot
  /-- `CRQ` (R93): the mode request 'C' sent. -/
  | crq
  /-- `ACK` (R108, R112): the acknowledge byte sent. -/
  | ack
  /-- `NAK` (R110): the negative-acknowledge byte sent. -/
  | nak
  /-- `NVM_ERASE(a)` (R151): erase the page that starts at byte address `a`. -/
  | nvmErase (a : Nat)
  /-- `NVM_FILL(o, w)` (R152): stage the word `w` at the even byte offset `o` of the page write buffer. -/
  | nvmFill (o : Nat) (w : Word)
  /-- `NVM_WRITE(a)` (R153): write the page write buffer to the page that starts at byte address `a`. -/
  | nvmWrite (a : Nat)
  /-- `NVM_RWWEN` (R154): restore read access. -/
  | nvmRwwen
  /-- `CRC16(S)` (R80): the integrity code of the bytes `S`. -/
  | crc16 (bytes : List Byte)
  /-- `COMMIT(pageAddress, pageBytes)` (R130); `src` is the offset in the receive buffer of `pageBytes[0]`. -/
  | commit (pageAddress src : Nat)
  deriving DecidableEq, Repr

/-- The interfaces an instruction passes over (R60, R61): received and sent bytes of the Byte Transport, and the command word
between the Page Programmer and the memory controller. The two internal operations pass over none. -/
inductive Channel where
  | received
  | sent
  | command
  deriving DecidableEq, Repr

end Sys2Proof
end

