-- ==== Sys2Proof/WellFormed.lean ====
section
/-! DEFINITION. When an instruction's operands are ones the spec gives it, in a configuration (R62, R65, R130, R151 to R153). -/

namespace Sys2Proof

/-- The operands of `i` are ones the spec gives a meaning: a payload of 128 bytes (R62), a page start address (R130, R151, R153),
an even fill offset inside the page (R152), and bytes of a commit that lie in the receive buffer (R27, R130). -/
def Instr.wellFormed (c : Config) : Instr → Bool
  | .soh _ _ payload _ _ => payload.length == blockSize
  | .eot => true
  | .crq => true
  | .ack => true
  | .nak => true
  | .nvmErase a => c.isPageAddr a
  | .nvmFill o _ => c.isFillOffset o
  | .nvmWrite a => c.isPageAddr a
  | .nvmRwwen => true
  | .crc16 _ => true
  | .commit a src => c.isPageAddr a && c.inBuf src c.pageSize

end Sys2Proof
end

