-- ==== Sys2Proof/Decode.lean ====
section
/-! DEFINITION. The decoder and the encoder of the three formats PKT, CTL and NVMCMD (R61 to R66), and the reading of a word
numbered as spec/opcode_table.json numbers it. -/

namespace Sys2Proof

/-- The five wire symbols of R64. -/
def symSOH : Byte := 0x01
def symEOT : Byte := 0x04
def symACK : Byte := 0x06
def symNAK : Byte := 0x15
/-- ASCII 'C' (R64; the number is general knowledge that the spec marks, G4). -/
def symCRQ : Byte := 0x43

/-- The four command codes of R65. -/
def cmdErase : Nat := 0b001
def cmdFill : Nat := 0b010
def cmdWrite : Nat := 0b011
def cmdRwwen : Nat := 0b100

/-- Why bytes are no instruction. -/
inductive DecodeError where
  /-- no byte at all -/
  | empty
  /-- the unit needs more bytes than there are (R69: 133 for a packet; R65 for a command) -/
  | incomplete
  /-- a received byte at a marker position that is neither `SOH` nor `EOT` (R71) -/
  | unrecognisedMarker (b : Byte)
  /-- a byte the block never sends (R73) -/
  | neverSent (b : Byte)
  /-- one of the four command codes without a meaning (R72) -/
  | reservedCommand (code : Nat)
  /-- a bit set above the command triple, in the last byte the triple does not fill (log 18) -/
  | strayBits
  deriving DecidableEq, Repr

/-- The bits of a command triple (R65): 3 of `cmd`, `ADDR_WIDTH` of `addr`, 16 of `data`. -/
def Config.commandBits (c : Config) : Nat := 3 + c.addrWidth + 16

/-- The bytes the model lays a command triple out in (DESIGN CHOICE, log 18). -/
def Config.commandBytes (c : Config) : Nat := (c.commandBits + 7) / 8

/-- The number the bytes stand for, first byte least significant. -/
def numberOf : List Byte → Nat
  | [] => 0
  | b :: bs => b.toNat + 256 * numberOf bs

/-- The `n` bytes of a number, least significant byte first. -/
def bytesOf : Nat → Nat → List Byte
  | 0, _ => []
  | n + 1, v => BitVec.ofNat 8 v :: bytesOf n (v / 256)

/-- The command with code `cmd` and the fields `addr` and `data` (R65). -/
def commandOf (cmd addr data : Nat) : Except DecodeError Instr :=
  if cmd = cmdErase then .ok (.nvmErase addr)
  else if cmd = cmdFill then .ok (.nvmFill addr (BitVec.ofNat 16 data))
  else if cmd = cmdWrite then .ok (.nvmWrite addr)
  else if cmd = cmdRwwen then .ok .nvmRwwen
  else .error (.reservedCommand cmd)

/-- A command triple as one number: `cmd` in bits 2 to 0 as the opcode table numbers it, then `addr`, then `data`
(the places of `addr` and `data` are a DESIGN CHOICE, log 18). -/
def decodeCommandWord (c : Config) (v : Nat) : Except DecodeError Instr :=
  if v < 2 ^ c.commandBits then
    commandOf (v % 8) (v / 8 % 2 ^ c.addrWidth) (v / 2 ^ (3 + c.addrWidth) % 2 ^ 16)
  else .error .strayBits

/-- A data packet after its marker (R62): sequence number, complement, 128 payload bytes, code high byte, code low byte. -/
def decodePacketBody : List Byte → Except DecodeError (Instr × List Byte)
  | seq :: cmp :: rest =>
    match rest.drop blockSize with
    | hi :: lo :: rest' => .ok (.soh seq cmp (rest.take blockSize) hi lo, rest')
    | _ => .error .incomplete
  | _ => .error .incomplete

/-- The wire unit that begins at a marker position (R69): a packet or `EOT`, told apart by the marker alone. -/
def decodeReceived : List Byte → Except DecodeError (Instr × List Byte)
  | [] => .error .empty
  | b :: rest =>
    if b = symSOH then decodePacketBody rest
    else if b = symEOT then .ok (.eot, rest)
    else .error (.unrecognisedMarker b)

/-- A symbol the block sends (R64, R73). -/
def decodeSent : List Byte → Except DecodeError (Instr × List Byte)
  | [] => .error .empty
  | b :: rest =>
    if b = symCRQ then .ok (.crq, rest)
    else if b = symACK then .ok (.ack, rest)
    else if b = symNAK then .ok (.nak, rest)
    else .error (.neverSent b)

/-- A command word (R65). -/
def decodeCommand (c : Config) (bytes : List Byte) : Except DecodeError (Instr × List Byte) :=
  if bytes.length < c.commandBytes then .error .incomplete
  else
    match decodeCommandWord c (numberOf (bytes.take c.commandBytes)) with
    | .ok i => .ok (i, bytes.drop c.commandBytes)
    | .error e => .error e

/-- The decoder: total on any bytes of any interface, rejecting by name. -/
def decode (c : Config) : Channel → List Byte → Except DecodeError (Instr × List Byte)
  | .received, bytes => decodeReceived bytes
  | .sent, bytes => decodeSent bytes
  | .command, bytes => decodeCommand c bytes

/-- The command triple as a number (R65). -/
def commandWord (c : Config) (cmd addr data : Nat) : Nat :=
  cmd + 8 * (addr + 2 ^ c.addrWidth * data)

/-- The bytes of a command triple. -/
def encodeCommand (c : Config) (cmd addr data : Nat) : List Byte :=
  bytesOf c.commandBytes (commandWord c cmd addr data)

/-- The encoder: the interface and the bytes of an instruction; none for the two internal operations, which have no encoding
(R61). -/
def encode (c : Config) : Instr → Option (Channel × List Byte)
  | .soh seq cmp payload hi lo => some (.received, symSOH :: seq :: cmp :: (payload ++ [hi, lo]))
  | .eot => some (.received, [symEOT])
  | .crq => some (.sent, [symCRQ])
  | .ack => some (.sent, [symACK])
  | .nak => some (.sent, [symNAK])
  | .nvmErase a => some (.command, encodeCommand c cmdErase a 0)
  | .nvmFill o w => some (.command, encodeCommand c cmdFill o w.toNat)
  | .nvmWrite a => some (.command, encodeCommand c cmdWrite a 0)
  | .nvmRwwen => some (.command, encodeCommand c cmdRwwen 0 0)
  | .crc16 _ => none
  | .commit _ _ => none

/-- The bytes of a packet on the wire, 133 (R62). -/
def packetBytes : Nat := 133

/-- The interface a table word of `nbits` bits and value `w` belongs to. The table numbers wire units and commands in one list
though they pass over different interfaces; a word of 133 bytes or more is a packet, a word of 8 bits whose value is a CTL
symbol is that symbol, and every other word is a command (DESIGN CHOICE, log 19). -/
def tableChannel (nbits w : Nat) : Channel :=
  if 8 * packetBytes ≤ nbits then .received
  else if nbits = 8 ∧ w = symEOT.toNat then .received
  else if nbits = 8 ∧ (w = symCRQ.toNat ∨ w = symACK.toNat ∨ w = symNAK.toNat) then .sent
  else .command

/-- The bytes of a table word on its interface, the first byte the least significant one, zeros above its bits. -/
def tableBytes (nbits w : Nat) : List Byte :=
  match tableChannel nbits w with
  | .received => if 8 * packetBytes ≤ nbits then bytesOf packetBytes w else bytesOf 1 w
  | .sent => bytesOf 1 w
  | .command => bytesOf Config.standard.commandBytes w

/-- The instruction the decoder reads from a table word (log 19). The host gives no configuration with the word, so a command word is
read with the 16 address bits of `Config.standard`, in whatever configuration it is placed afterwards; R7 leaves `ADDR_WIDTH` open
(DESIGN CHOICE, log 19). -/
def decodeTableWord (nbits w : Nat) : Option Instr :=
  match decode Config.standard (tableChannel nbits w) (tableBytes nbits w) with
  | .ok (i, _) => some i
  | .error _ => none

end Sys2Proof
end

