-- ==== Sys2Proof/Machine/State.lean ====
section
/-! DEFINITION. The state of the machine (spec/10_state.md), as plain data; the reasons a step can stop; the state after reset. -/

namespace Sys2Proof.Machine

/-- `ST` and `PH` together (R12, R13): the sixteen and one pairs that are ever reached, so that no other pair can be written
(log 12). The codes of the two registers are `Ctl.stCode` and `Ctl.phCode` (Machine/Sequencing.lean). -/
inductive Ctl where
  /-- `AwaitStart`/`HOLD`: waiting for `start`. -/
  | awaitHold
  /-- `AwaitStart`/`REQ`: about to send 'C'. -/
  | awaitReq
  /-- `AwaitStart`/`MARK`: waiting for the first marker. -/
  | awaitMark
  /-- `ReceivingHeader`/`MARK`: waiting for the marker of the next wire unit. -/
  | hdrMark
  /-- `ReceivingHeader`/`SEQ`: waiting for the sequence number. -/
  | hdrSeq
  /-- `ReceivingHeader`/`CMP`: waiting for the complement. -/
  | hdrCmp
  /-- `ReceivingPayload`/`DATA`. -/
  | payData
  /-- `ReceivingPayload`/`CRCHI`. -/
  | payCrcHi
  /-- `ReceivingPayload`/`CRCLO`. -/
  | payCrcLo
  /-- `Validating`. -/
  | validating
  /-- `Acknowledging`/`CHECK`. -/
  | ackCheck
  /-- `Acknowledging`/`FLUSH`: about to start a commit. -/
  | ackFlush
  /-- `Acknowledging`/`ADV`: waiting for that commit to return. -/
  | ackAdv
  /-- `Acknowledging`/`SEND`. -/
  | ackSend
  /-- `Rejecting`. -/
  | rejecting
  /-- `Terminal`/`SEND`. -/
  | termSend
  /-- `Terminal`/`END`. -/
  | termEnd
  deriving DecidableEq, Repr

/-- `PP_STEP` (R21): `IDLE`, or one of the nine steps. The codes 10 to 15 are never written, so they have no name. -/
inductive PpStep where
  | idle
  /-- suspend interrupts (R131) -/
  | s1
  /-- wait for the controller (R132) -/
  | s2
  /-- erase (R133) -/
  | s3
  /-- wait for the erase (R134) -/
  | s4
  /-- stage words (R135) -/
  | s5
  /-- write the page (R136) -/
  | s6
  /-- wait for the write (R137) -/
  | s7
  /-- restore read access (R138) -/
  | s8
  /-- restore interrupts and return (R139) -/
  | s9
  deriving DecidableEq, Repr

/-- `NVM_PEND` (R32): the operation that is outstanding while `NVM_BUSY` = 1. -/
inductive NvmOp where
  /-- `Erase(a)` -/
  | erase (a : Nat)
  /-- `Write(a)` -/
  | write (a : Nat)
  /-- an operation the platform started before the block; it touches no page of the application region -/
  | foreign
  deriving DecidableEq, Repr

/-- What the platform decides at a reset (R211: `IE`, `NVM_BUSY`, `RXQ`, `TXQ` and the pending interrupt requests are unspecified,
inputs of the run by U5; log 6). -/
structure PlatformReset where
  /-- `IE` after the platform's reset. -/
  ie : Bool
  /-- the platform has an operation outstanding; ignored where the reset strikes the block's own operation (R211) -/
  foreignBusy : Bool
  /-- bytes waiting in the receive stream -/
  rxq : List Byte
  /-- bytes not yet taken from the transmit stream -/
  txq : List Byte
  /-- interrupt requests pending -/
  irqPending : Nat
  deriving DecidableEq, Repr

/-- A move of one agent (R10). -/
inductive Event where
  /-- `RCV`: one step of the block (R90, R131 to R139). -/
  | rcv
  /-- `RCV`: the whole instruction that starts here, in one step (R116 to R118; log 8). -/
  | unit
  /-- `BOOT` raises `start` (R92). -/
  | start
  /-- `BOOT` reads `DONE` (R162). -/
  | readDone
  /-- `SND` appends a byte to `RXQ` (R160). -/
  | send (b : Byte)
  /-- `SND` removes the oldest byte of `TXQ` (R160). -/
  | take
  /-- `NVMC` completes the outstanding operation (R156). -/
  | complete
  /-- `RST`: reset or power loss (R210). -/
  | reset (p : PlatformReset)
  /-- an interrupt request of the platform arrives (R34; log 26). -/
  | irq
  /-- the platform takes a pending request, if `IE` = 1 (R34; log 26). -/
  | takeIrq
  deriving DecidableEq, Repr

/-- Everything the spec gives the machine. -/
structure State where
  /-- The parameters of R7; no step changes them (log 1). -/
  cfg : Config
  /-- `ST` and `PH` (R12, R13). -/
  ctl : Ctl
  /-- `BCNT` (R14): payload bytes of the current packet already stored. -/
  bcnt : BitVec 7
  /-- `WOFF` (R16): bytes of `BUF` that hold payload not yet committed. -/
  woff : Nat
  /-- `TADDR` (R17): byte address of the next page to be programmed. -/
  taddr : Nat
  /-- `RXHI` (R18). -/
  rxHi : Byte
  /-- `RXLO` (R18). -/
  rxLo : Byte
  /-- `CRCV` (R19). -/
  crcv : Word
  /-- `FLUSH_K` (R20): pages already committed in the current flush. -/
  flushK : BitVec 2
  /-- `PP_STEP` (R21). -/
  ppStep : PpStep
  /-- `PP_ADDR` (R21). -/
  ppAddr : Nat
  /-- `PP_SRC` (R21). -/
  ppSrc : Nat
  /-- `WIDX` (R21). -/
  widx : Nat
  /-- `SAVED_IE` (R21). -/
  savedIe : Bool
  /-- `DONE` (R23). -/
  done : Bool
  /-- `IE` (R24), the platform's. -/
  ie : Bool
  /-- `BUF` (R27): the bytes whose value is known, rising index; an unlisted byte is unspecified (log 5). -/
  buf : List Host.Cell
  /-- `PWB` (R28): the words whose value is known, rising index; an unlisted word is unspecified (log 5). -/
  pwb : List (Nat × Word)
  /-- `NVM` (R29): the bytes whose value is known, rising address; an unlisted byte holds a value nobody knows (log 5). -/
  nvm : List Host.Cell
  /-- The model's own: for each byte of `NVM` that became unspecified in the run, the draw that names the value it holds since;
  draw 0 for an unlisted byte (log 5). -/
  nvmDraw : List (Nat × Nat)
  /-- `RXQ` (R30), oldest byte first. -/
  rxq : List Byte
  /-- `TXQ` (R30), oldest byte first. -/
  txq : List Byte
  /-- `NVM_PEND` (R32); `NVM_BUSY` (R31) is 1 exactly while there is one (log 11). -/
  nvmPend : Option NvmOp
  /-- `RWW_EN` (R33). -/
  rwwEn : Bool
  /-- The platform's pending interrupt requests (R34; log 26). -/
  irqPending : Nat
  /-- The model's own: the agents' moves still to come, oldest first (R11; log 7). -/
  script : List Event
  /-- The model's own: the number of the next draw of free values (log 5). -/
  fresh : Nat
  /-- The model's own: the draw of the unspecified bytes of `BUF` (log 5). -/
  bufDraw : Nat
  /-- The model's own: the draw of the unspecified words of `PWB` (log 5). -/
  pwbDraw : Nat
  deriving DecidableEq, Repr

/-- Why the machine stops. -/
inductive Fault where
  /-- R186: a flush would start a commit past `APP_LIMIT`. Raised by the flush (R105) before the commit. Safe: it takes runs away
  (log 22). -/
  | commitOutsideAppRegion (addr : Nat)
  /-- R187: a controller command while `NVM_BUSY` = 1. Raised by the four commands. Safe: no run reaches it (log 23). -/
  | nvmCommandWhileBusy
  /-- R44, R151 to R153: a command's address is no page start address, or a fill offset is odd or past the page; also an observer's
  read past `NVM_SIZE`. Raised by the commands and by `memRead`. Safe: no run of the block reaches it (log 16). -/
  | nvmOperandInvalid
  /-- R27, R37: an index that `BUF` does not have. Raised by the buffer accesses. Safe: no run reaches it (log 17). -/
  | bufIndexOutside
  deriving DecidableEq, Repr

/-- Why the model gives no meaning. -/
inductive Refusal where
  /-- An instruction that has no meaning in the model yet, by its mnemonic. Raised by `exec` alone. Safe. -/
  | notModelled (mnemonic : String)
  /-- R188: the parameters break a constraint of R7. Raised by `step`, at every state of such a configuration. Safe (log 32). -/
  | configRefused
  /-- R15: the instruction is not enabled at this sequencing state. Raised by the meanings. Safe: `step` never asks for one (log 9). -/
  | notEnabled
  /-- R62: the term is no packet, its payload is not 128 bytes. Raised by `SOH`. Safe (log 9). -/
  | illFormedPacket
  deriving DecidableEq, Repr

/-- What a step answers. -/
abbrev Result := Host.Outcome State Fault Refusal

/-- The state right after reset of a configuration, with the values the vectors' start state takes for what the reset table leaves
to the platform, and zero where R211 says unspecified (DESIGN CHOICE, unsafe: log 3, 4). -/
def State.resetOf (c : Config) : State where
  cfg := c
  ctl := .awaitHold
  bcnt := 0
  woff := 0
  taddr := c.appBase
  rxHi := 0
  rxLo := 0
  crcv := 0
  flushK := 0
  ppStep := .idle
  ppAddr := 0
  ppSrc := 0
  widx := 0
  savedIe := false
  done := false
  ie := false
  buf := []
  pwb := []
  nvm := []
  nvmDraw := []
  rxq := []
  txq := []
  nvmPend := none
  rwwEn := true
  irqPending := 0
  script := []
  fresh := 1
  bufDraw := 0
  pwbDraw := 0

/-- The machine right after reset (R211), in the configuration `Config.standard` (log 1). -/
def State.reset : State := State.resetOf Config.standard

end Sys2Proof.Machine
end

