-- ==== Sys2Proof/Machine/Flags.lean ====
section
/-! DEFINITION. The flag computations: `IE` and `SAVED_IE` (R131, R139), `DONE` (R92, R112), `RWW_EN` (R151, R153, R154), and the pending
interrupt requests that `IE` holds off (R34). -/

namespace Sys2Proof.Machine

/-- The interrupt guard's first half, one atomic step (R131, D16): `SAVED_IE <- IE; IE <- 0`. -/
def State.suspendInterrupts (s : State) : State := { s with savedIe := s.ie, ie := false }

/-- The interrupt guard's second half (R139, R143): `IE` gets the value it was found with. -/
def State.restoreInterrupts (s : State) : State := { s with ie := s.savedIe }

/-- `DONE <- 1`, the end of a session (R112). -/
def State.setDone (s : State) : State := { s with done := true }

/-- `RWW_EN <- 0`: the programmed region is no longer readable (R151, R153). -/
def State.closeReads (s : State) : State := { s with rwwEn := false }

/-- `RWW_EN <- 1` (R154). -/
def State.openReads (s : State) : State := { s with rwwEn := true }

/-- A request of the platform arrives and waits (R34, R189). -/
def State.irqArrives (s : State) : State := { s with irqPending := s.irqPending + 1 }

/-- The platform takes a pending request if `IE` = 1; while `IE` = 0 requests are held off (R34). A handler returns with `IE` as
found (D16), so the block sees nothing of it (log 26). -/
def State.irqTaken (s : State) : State :=
  if s.ie then { s with irqPending := s.irqPending - 1 } else s

end Sys2Proof.Machine
end

