-- ==== Sys2Proof/Machine/Operands.lean ====
section
/-! DEFINITION. How operands are put together: the received code (R41, R66), a program-memory word (R42, R67), and the updates of
`WOFF`, `TADDR`, `WIDX` and `PP_SRC` (R115). -/

namespace Sys2Proof.Machine

/-- The received integrity code `{crc_hi, crc_lo}`, first byte high (R66). -/
def codeOf (hi lo : Byte) : Word := (hi.zeroExtend 16 <<< 8) ||| lo.zeroExtend 16

/-- A program-memory word from two consecutive bytes, first byte low (R67). -/
def wordOf (b0 b1 : Byte) : Word := b0.zeroExtend 16 ||| (b1.zeroExtend 16 <<< 8)

/-- `w[7:0]`. -/
def lowByte (w : Word) : Byte := w.truncate 8

/-- `w[15:8]`. -/
def highByte (w : Word) : Byte := (w >>> 8).truncate 8

/-- `WOFF + 128` in the width of `WOFF` (R100). -/
def State.woffUp (s : State) : Nat := addMod s.cfg.woffWidth s.woff blockSize

/-- `WOFF - 128` in the width of `WOFF` (R110). -/
def State.woffDown (s : State) : Nat := subMod s.cfg.woffWidth s.woff blockSize

/-- `TADDR + PAGE_SIZE` in the width of `TADDR` (R106). -/
def State.taddrNext (s : State) : Nat := addMod s.cfg.addrWidth s.taddr s.cfg.pageSize

/-- `FLUSH_K * PAGE_SIZE`, the offset in `BUF` of the page a commit takes (R105). -/
def State.flushSrc (s : State) : Nat := s.flushK.toNat * s.cfg.pageSize

/-- `WIDX + 1` in the width of `WIDX` (R135). -/
def State.widxNext (s : State) : Nat := addMod s.cfg.widxWidth s.widx 1

/-- The index in `BUF` of the first byte of the word to stage, `PP_SRC + 2*WIDX` (R135). -/
def State.stageSrc (s : State) : Nat := s.ppSrc + 2 * s.widx

/-- A packet as it stands on the wire after its marker (R62). -/
def packetBody (seq cmp : Byte) (payload : List Byte) (hi lo : Byte) : List Byte :=
  seq :: cmp :: (payload ++ [hi, lo])

end Sys2Proof.Machine
end

