-- ==== Sys2Proof/Machine/Sequencing.lean ====
section
/-! DEFINITION. The codes of `ST`, `PH` and `PP_STEP` (R12, R13, R21 of spec/10_state.md), and when the block's one step is enabled
(the table of R90, R91, R132, R134, R137). -/

namespace Sys2Proof.Machine

/-- The code of `ST` (R12). -/
def Ctl.stCode : Ctl → BitVec 3
  | .awaitHold | .awaitReq | .awaitMark => 0
  | .hdrMark | .hdrSeq | .hdrCmp => 1
  | .payData | .payCrcHi | .payCrcLo => 2
  | .validating => 3
  | .ackCheck | .ackFlush | .ackAdv | .ackSend => 4
  | .rejecting => 5
  | .termSend | .termEnd => 6

/-- The code of `PH` in its state (R13). -/
def Ctl.phCode : Ctl → BitVec 2
  | .awaitHold => 0
  | .awaitReq => 1
  | .awaitMark => 2
  | .hdrMark => 0
  | .hdrSeq => 1
  | .hdrCmp => 2
  | .payData => 0
  | .payCrcHi => 1
  | .payCrcLo => 2
  | .validating => 0
  | .ackCheck => 0
  | .ackFlush => 1
  | .ackAdv => 2
  | .ackSend => 3
  | .rejecting => 0
  | .termSend => 0
  | .termEnd => 1

/-- The code of `PP_STEP` (R21): 0 is `IDLE`, 1 to 9 the nine steps in order. -/
def PpStep.code : PpStep → BitVec 4
  | .idle => 0
  | .s1 => 1
  | .s2 => 2
  | .s3 => 3
  | .s4 => 4
  | .s5 => 5
  | .s6 => 6
  | .s7 => 7
  | .s8 => 8
  | .s9 => 9

/-- The two `MARK` phases (R71). -/
def Ctl.atMark : Ctl → Bool
  | .awaitMark | .hdrMark => true
  | _ => false

/-- The phases whose step reads a byte (R91; the places of R182). -/
def Ctl.reads : Ctl → Bool
  | .awaitMark | .hdrMark | .hdrSeq | .hdrCmp | .payData | .payCrcHi | .payCrcLo => true
  | _ => false

/-- `NVM_BUSY` (R31): an erase or write is outstanding. -/
def State.nvmBusy (s : State) : Bool := s.nvmPend.isSome

/-- The Receiver stands at `c` and may step: the Page Programmer is idle (R145). -/
def State.receiverAt (s : State) (c : Ctl) : Bool := s.ppStep == .idle && s.ctl == c

/-- The Receiver stands at a marker position and may step. -/
def State.receiverAtMark (s : State) : Bool := s.ppStep == .idle && s.ctl.atMark

/-- The block's one step is enabled. With a commit running it is the Page Programmer's: the three waits need `NVM_BUSY` = 0
(R132, R134, R137), the other steps are always enabled. Otherwise it is the Receiver's (R90): a reading phase needs a byte in
`RXQ` (R91), `AwaitStart`/`HOLD` waits for `start`, `Terminal`/`END` has no step (R113), and the rest are always enabled. -/
def State.rcvEnabled (s : State) : Bool :=
  match s.ppStep with
  | .idle =>
    match s.ctl with
    | .awaitHold | .termEnd => false
    | .awaitReq | .validating | .ackCheck | .ackFlush | .ackAdv | .ackSend | .rejecting | .termSend => true
    | .awaitMark | .hdrMark | .hdrSeq | .hdrCmp | .payData | .payCrcHi | .payCrcLo => !s.rxq.isEmpty
  | .s2 | .s4 | .s7 => !s.nvmBusy
  | .s1 | .s3 | .s5 | .s6 | .s8 | .s9 => true

end Sys2Proof.Machine
end

