-- ==== Sys2Proof/Machine/Ops.lean ====
section
/-! DEFINITION. The named operations over the memories and the registers: sparse memories in one canonical form, the receive buffer,
the byte streams, the handling of an integrity mismatch (the block's one exception), `start` and reset. -/

namespace Sys2Proof.Machine

/-- One operation after another; the first fault or refusal ends the sequence (R9's `;`). -/
def andThen (o : Result) (f : State → Result) : Result :=
  match o with
  | .next s => f s
  | .fault r => .fault r
  | .refused r => .refused r

/-! ## Sparse memories

A memory is a list of (address, value) pairs with strictly rising addresses; an unlisted address has no known value (log 5). -/

/-- The value listed at an address; none where the value is unspecified. -/
def Memory.read {α : Type} : List (Nat × α) → Nat → Option α
  | [], _ => none
  | (k, v) :: m, a => if a = k then some v else Memory.read m a

/-- List a value at an address, in its place. -/
def Memory.write {α : Type} : List (Nat × α) → Nat → α → List (Nat × α)
  | [], a, v => [(a, v)]
  | (k, w) :: m, a, v =>
    if a < k then (a, v) :: (k, w) :: m
    else if a = k then (a, v) :: m
    else (k, w) :: Memory.write m a v

/-- List consecutive values from an address upward. -/
def Memory.writeAll {α : Type} : List (Nat × α) → Nat → List α → List (Nat × α)
  | m, _, [] => m
  | m, a, v :: vs => Memory.writeAll (Memory.write m a v) (a + 1) vs

/-- Forget the `n` values from an address upward: they become unspecified. -/
def Memory.forget {α : Type} (m : List (Nat × α)) (a n : Nat) : List (Nat × α) :=
  m.filter fun c => !(decide (a ≤ c.1) && decide (c.1 < a + n))

/-- The canonical form: strictly rising addresses. (No entry can equal what an unlisted address reads as, which is no value.) -/
def Memory.wf {α : Type} : List (Nat × α) → Bool
  | [] => true
  | (k, _) :: m => m.all (fun c => k < c.1) && Memory.wf m

/-- Every listed address is below `n`. -/
def Memory.below {α : Type} (n : Nat) (m : List (Nat × α)) : Bool := m.all fun c => c.1 < n

/-! ## The receive buffer (R27) -/

/-- Byte `i` of `BUF`; where it was never written since reset, a free value (U4). -/
def State.bufByte (s : State) (i : Nat) : Byte :=
  (Memory.read s.buf i).getD (Config.freeValue 8 (.bufByte i) s.bufDraw)

/-- `BUF[lo .. lo + n - 1]`, ascending (R9). -/
def State.bufSpan (s : State) (lo n : Nat) : List Byte := (List.range n).map fun k => s.bufByte (lo + k)

/-- `BufWrite(i, b)` (R9). An index `BUF` does not have faults (R37: no run reaches it). -/
def bufWrite (i : Nat) (b : Byte) (s : State) : Result :=
  if s.cfg.inBuf i 1 then .next { s with buf := Memory.write s.buf i b } else .fault .bufIndexOutside

/-! ## The page write buffer (R28) -/

/-- Word `i` of `PWB`; where it was not filled since reset or the last write, a free value (U8). -/
def State.pwbWord (s : State) (i : Nat) : Word :=
  (Memory.read s.pwb i).getD (Config.freeValue 16 (.pwbWord i) s.pwbDraw)

/-- The bytes a write command puts into a page: each word low byte first (R42, R156). -/
def State.pwbBytes (s : State) : List Byte :=
  (List.range s.cfg.pageWords).flatMap fun i => [lowByte (s.pwbWord i), highByte (s.pwbWord i)]

/-! ## The byte streams (R30, R159) -/

/-- `TxByte(b)`: always enabled, appends (R159). -/
def State.txByte (s : State) (b : Byte) : State := { s with txq := s.txq ++ [b] }

/-- The sender appends a byte to `RXQ` (R160). -/
def State.sndSend (s : State) (b : Byte) : State := { s with rxq := s.rxq ++ [b] }

/-- The sender removes the oldest byte of `TXQ`, if there is one (R160). -/
def State.sndTake (s : State) : State := { s with txq := s.txq.drop 1 }

/-- Take `n` bytes from the front of `RXQ`. -/
def State.dropRx (s : State) (n : Nat) : State := { s with rxq := s.rxq.drop n }

/-! ## Sequencing -/

/-- `ST <- …; PH <- …` (R9). -/
def State.goto (s : State) (c : Ctl) : State := { s with ctl := c }

/-- `PP_STEP <- …`. -/
def State.ppGoto (s : State) (p : PpStep) : State := { s with ppStep := p }

/-! ## The one exception: `IntegrityMismatch` (R181, R191, R192) -/

/-- Taking the exception (R103, R191): nothing is saved, `ST <- Rejecting`. -/
def State.takeMismatch (s : State) : State := s.goto .rejecting

/-- Handling it and returning (R110): `WOFF <- WOFF - 128`, `NAK` is sent, back to `ReceivingHeader`/`MARK`. -/
def State.returnFromMismatch (s : State) : State :=
  ({ s with woff := s.woffDown }.txByte symNAK).goto .hdrMark

/-! ## Program memory (R29) -/

/-- The draws of `NVM` after the bytes of the page at `a` became unspecified: each of them holds a value of the next draw, and
keeps it until the byte is written (log 5). -/
def State.redrawPage (s : State) (a : Nat) : List (Nat × Nat) :=
  Memory.writeAll s.nvmDraw a (List.replicate s.cfg.pageSize s.fresh)

/-! ## `start` and reset -/

/-- `BOOT` raises `start` (R92): at `AwaitStart`/`HOLD` it creates the session, anywhere else it is ignored. -/
def State.bootStart (s : State) : State :=
  if s.receiverAt .awaitHold then
    { s with ctl := .awaitReq, woff := 0, taddr := s.cfg.appBase, done := false, bcnt := 0, flushK := 0 }
  else s

/-- The page an outstanding operation is working on. -/
def NvmOp.page : NvmOp → Option Nat
  | .erase a => some a
  | .write a => some a
  | .foreign => none

/-- `NVM` after a reset (R210): unchanged, except that a page with an erase or write outstanding becomes unspecified. -/
def State.nvmAfterReset (s : State) : List Host.Cell :=
  match s.nvmPend.bind NvmOp.page with
  | some a => Memory.forget s.nvm a s.cfg.pageSize
  | none => s.nvm

/-- The draws of `NVM` after a reset: the bytes that become unspecified hold new values, every other byte keeps its own (R210). -/
def State.nvmDrawAfterReset (s : State) : List (Nat × Nat) :=
  match s.nvmPend.bind NvmOp.page with
  | some a => s.redrawPage a
  | none => s.nvmDraw

/-- `NVM_PEND` after a reset (R211): nothing outstanding after a reset that struck the block's own operation, otherwise what the
platform has outstanding. -/
def State.pendAfterReset (s : State) (p : PlatformReset) : Option NvmOp :=
  match s.nvmPend.bind NvmOp.page with
  | some _ => none
  | none => if p.foreignBusy then some .foreign else none

/-- Reset (R210, R211): the block's sequencing and session registers get their reset values, the registers and buffers the table
calls unspecified get free values (log 6), the platform's state is the platform's. The script goes on. -/
def State.hardReset (s : State) (p : PlatformReset) : State :=
  { s with
    ctl := .awaitHold
    bcnt := 0
    woff := 0
    taddr := s.cfg.appBase
    rxHi := Config.freeValue 8 .rxHi s.fresh
    rxLo := Config.freeValue 8 .rxLo s.fresh
    crcv := Config.freeValue 16 .crcv s.fresh
    flushK := 0
    ppStep := .idle
    ppAddr := (Config.freeValue s.cfg.addrWidth .ppAddr s.fresh).toNat
    ppSrc := (Config.freeValue s.cfg.woffWidth .ppSrc s.fresh).toNat
    widx := (Config.freeValue s.cfg.widxWidth .widx s.fresh).toNat
    savedIe := (Config.freeValue 1 .savedIe s.fresh).getLsbD 0
    done := false
    ie := p.ie
    buf := []
    pwb := []
    nvm := s.nvmAfterReset
    nvmDraw := s.nvmDrawAfterReset
    rxq := p.rxq
    txq := p.txq
    nvmPend := s.pendAfterReset p
    rwwEn := true
    irqPending := p.irqPending
    fresh := s.fresh + 1
    bufDraw := s.fresh
    pwbDraw := s.fresh }

end Sys2Proof.Machine
end

