-- ==== Sys2Proof/Machine/CrcEngine.lean ====
section
/-! DEFINITION. The CRC Engine (spec/40_crc_engine.md): the operation `CRC16`. -/

namespace Sys2Proof.Machine

/-- One shift of the code register (R81): the bit shifted out decides whether the polynomial is added. -/
def crcShift (poly c : Word) : Word :=
  if c.getLsbD 15 then (c <<< 1) ^^^ poly else c <<< 1

/-- `n` shifts. -/
def crcShifts (poly : Word) : Nat → Word → Word
  | 0, c => c
  | n + 1, c => crcShifts poly n (crcShift poly c)

/-- `CrcByte(c, b)` (R81): the byte enters at the high end, most significant bit first; eight shifts. -/
def crcByte (poly c : Word) (b : Byte) : Word :=
  crcShifts poly 8 (c ^^^ (b.zeroExtend 16 <<< 8))

/-- The code register after the bytes, first to last, from the value `c`. -/
def crcFrom (poly : Word) : Word → List Byte → Word
  | c, [] => c
  | c, b :: bs => crcFrom poly (crcByte poly c b) bs

/-- `CRC16(S)` (R80). -/
def crc16 (c : Config) (bytes : List Byte) : Word := crcFrom c.crcPoly c.crcInit bytes

/-- `CRC16`: the code of the operand, which the caller's step writes to `CRCV` (R80, R103; log 28). -/
def execCrc16 (bytes : List Byte) (s : State) : Result :=
  .next { s with crcv := crc16 s.cfg bytes }

end Sys2Proof.Machine
end

