-- ==== Sys2Proof/Machine/NvmController.lean ====
section
/-! DEFINITION. The memory controller (spec/43_nvm_and_platform_interfaces.md): its four commands, its completion step, and what an
observer reads. -/

namespace Sys2Proof.Machine

/-- A command is accepted only while `NVM_BUSY` = 0 (R150); otherwise it faults (R187). -/
def whileIdle (f : State → Result) (s : State) : Result :=
  if s.nvmBusy then .fault .nvmCommandWhileBusy else f s

/-- The shared effect of an erase and a write (R151, R153): the operation is outstanding, reads are closed. An address that is no
page start address faults (R44, log 16). -/
def startNvmOp (op : NvmOp) (a : Nat) (s : State) : Result :=
  whileIdle (fun s =>
    if s.cfg.isPageAddr a then .next { s.closeReads with nvmPend := some op } else .fault .nvmOperandInvalid) s

/-- `NVM_ERASE(a)` (R151). -/
def execNvmErase (a : Nat) (s : State) : Result := startNvmOp (.erase a) a s

/-- `NVM_FILL(o, w)` (R152): `PWB[o/2] <- w`, at once. -/
def execNvmFill (o : Nat) (w : Word) (s : State) : Result :=
  whileIdle (fun s =>
    if s.cfg.isFillOffset o then .next { s with pwb := Memory.write s.pwb (o / 2) w } else .fault .nvmOperandInvalid) s

/-- `NVM_WRITE(a)` (R153). -/
def execNvmWrite (a : Nat) (s : State) : Result := startNvmOp (.write a) a s

/-- `NVM_RWWEN` (R154): `RWW_EN <- 1`, at once. -/
def execNvmRwwen (s : State) : Result := whileIdle (fun s => .next s.openReads) s

/-- Every byte of the page at `a` holds `ERASED_BYTE`. -/
def State.pageErased (s : State) (a : Nat) : Bool :=
  (List.range s.cfg.pageSize).all fun k => Memory.read s.nvm (a + k) == some s.cfg.erasedByte

/-- `NVM` after the completed write of a page (R156): the staged words, low byte first, where the page had been erased. The result
for a page that was not erased is not specified (R153, U7): its bytes become unspecified (log 15). -/
def State.nvmAfterWrite (s : State) (a : Nat) : List Host.Cell :=
  if s.pageErased a then Memory.writeAll s.nvm a s.pwbBytes else Memory.forget s.nvm a s.cfg.pageSize

/-- The draws of `NVM` after the completed write of a page: where the result is not specified, the page's bytes hold new values
(log 15). -/
def State.nvmDrawAfterWrite (s : State) (a : Nat) : List (Nat × Nat) :=
  if s.pageErased a then s.nvmDraw else s.redrawPage a

/-- Completion, the only step of `NVMC` (R156). Without an outstanding operation it is not enabled and nothing changes. -/
def State.nvmcComplete (s : State) : State :=
  match s.nvmPend with
  | none => s
  | some .foreign => { s with nvmPend := none }
  | some (.erase a) =>
    { s with nvm := Memory.writeAll s.nvm a (List.replicate s.cfg.pageSize s.cfg.erasedByte), nvmPend := none }
  | some (.write a) =>
    { s with nvm := s.nvmAfterWrite a, nvmDraw := s.nvmDrawAfterWrite a, pwb := [], pwbDraw := s.fresh
             fresh := s.fresh + 1, nvmPend := none }

/-- Address `a` lies in the page of the outstanding operation. -/
def State.inFlight (s : State) (a : Nat) : Bool :=
  match s.nvmPend.bind NvmOp.page with
  | some p => p ≤ a && a < p + s.cfg.pageSize
  | none => false

/-- The byte program memory holds at `a`; none where the spec leaves it unspecified: never given a value, or in the page of an
outstanding operation (R151, R153; log 14). -/
def State.nvmByte (s : State) (a : Nat) : Option Byte :=
  if s.inFlight a then none else Memory.read s.nvm a

/-- Program memory is readable (R33, R157): `RWW_EN` = 1 and `NVM_BUSY` = 0. -/
def State.readable (s : State) : Bool := s.rwwEn && !s.nvmBusy

/-- The byte `NVM` holds at `a` (R29): its known value, else the free value its draw names, which stays the same until the byte is
written or becomes unspecified again (log 5). -/
def State.storedByte (s : State) (a : Nat) : Byte :=
  (Memory.read s.nvm a).getD (Config.freeValue 8 (.nvmByte a) ((Memory.read s.nvmDraw a).getD 0))

/-- What an observer's read returns for the byte at `a` (R157): the byte program memory holds while it is readable, otherwise a free
value, fresh at every read (U6). -/
def State.observedByte (s : State) (a : Nat) : Byte :=
  if s.readable then s.storedByte a else Config.freeValue 8 (.nvmByte a) s.fresh

/-- The state after an observer's read: a read of readable memory changes nothing (R47), one in the window takes the next draw, so
that two reads there need not agree (U6). -/
def State.afterRead (s : State) : State := if s.readable then s else { s with fresh := s.fresh + 1 }

/-- `MemRead(addr, n)` (R157): the bytes an observer reads, and the state after the read. It faults past the end of the memory (R29,
log 16). The block never calls it. -/
def memRead (addr n : Nat) (s : State) : Except Fault (List Byte × State) :=
  if addr + n ≤ s.cfg.nvmSize then .ok ((List.range n).map (fun k => s.observedByte (addr + k)), s.afterRead)
  else .error .nvmOperandInvalid

end Sys2Proof.Machine
end

