-- ==== Sys2Proof/Machine/PageProgrammer.lean ====
section
/-! DEFINITION. The Page Programmer (spec/42_page_programmer.md): its nine steps, and the operation `COMMIT`. -/

namespace Sys2Proof.Machine

/-- The invocation (R130): latch the operands, `PP_STEP <- 1`. -/
def State.ppInvoke (s : State) (pageAddress src : Nat) : State :=
  { s with ppAddr := pageAddress, ppSrc := src, ppStep := .s1 }

/-- Step 1, suspend interrupts (R131). -/
def ppSuspend (s : State) : Result := .next (s.suspendInterrupts.ppGoto .s2)

/-- A wait step (R132, R134, R137, R155): enabled when `NVM_BUSY` = 0; until then the state stays (log 10). -/
def waitReady (go : State → State) (s : State) : Result := .next (if s.nvmBusy then s else go s)

/-- Step 2, wait for the controller (R132). -/
def ppWaitController (s : State) : Result := waitReady (fun s => s.ppGoto .s3) s

/-- Step 3, erase (R133). -/
def ppErase (s : State) : Result :=
  andThen (execNvmErase s.ppAddr s) fun t => .next (t.ppGoto .s4)

/-- Step 4, wait for the erase (R134): `WIDX <- 0`. -/
def ppWaitErase (s : State) : Result := waitReady (fun s => { s with widx := 0, ppStep := .s5 }) s

/-- The word step 5 stages next, little-endian from two consecutive bytes of `BUF` (R135). -/
def State.stageWord (s : State) : Word := wordOf (s.bufByte s.stageSrc) (s.bufByte (s.stageSrc + 1))

/-- The sequencing part of step 5 (R135): `WIDX <- WIDX + 1`, and on to step 6 after the last word. -/
def State.staged (s : State) : State :=
  { s with widx := s.widxNext, ppStep := if s.widxNext = s.cfg.pageWords then .s6 else .s5 }

/-- Step 5, stage one word (R135). -/
def ppStage (s : State) : Result :=
  if s.cfg.inBuf s.stageSrc 2 then
    andThen (execNvmFill (2 * s.widx) s.stageWord s) fun t => .next t.staged
  else .fault .bufIndexOutside

/-- Step 6, write the page (R136). -/
def ppWrite (s : State) : Result :=
  andThen (execNvmWrite s.ppAddr s) fun t => .next (t.ppGoto .s7)

/-- Step 7, wait for the write (R137). -/
def ppWaitWrite (s : State) : Result := waitReady (fun s => s.ppGoto .s8) s

/-- Step 8, restore read access (R138). -/
def ppRestoreRead (s : State) : Result :=
  andThen (execNvmRwwen s) fun t => .next (t.ppGoto .s9)

/-- Step 9, restore interrupts and return (R139). -/
def ppReturn (s : State) : Result := .next (s.restoreInterrupts.ppGoto .idle)

/-- One step of a running commit; at `IDLE` there is none. -/
def ppStep (s : State) : Result :=
  match s.ppStep with
  | .idle => .next s
  | .s1 => ppSuspend s
  | .s2 => ppWaitController s
  | .s3 => ppErase s
  | .s4 => ppWaitErase s
  | .s5 => ppStage s
  | .s6 => ppWrite s
  | .s7 => ppWaitWrite s
  | .s8 => ppRestoreRead s
  | .s9 => ppReturn s

/-- Step 5 taken `n` times (R135). -/
def stageWords : Nat → State → Result
  | 0, s => .next s
  | n + 1, s => andThen (ppStage s) (stageWords n)

/-- The controller completes what is outstanding, then the block goes on (R158: it always does). -/
def thenComplete (f : State → Result) (s : State) : Result := f s.nvmcComplete

/-- `COMMIT(pageAddress, pageBytes)` to its return (R130 to R141): the invocation and the nine steps in their order, the controller
completing each operation it is given (log 27). Enabled when the Page Programmer is idle (R130). -/
def execCommit (pageAddress src : Nat) (s : State) : Result :=
  if s.ppStep = .idle then
    andThen (ppSuspend (s.ppInvoke pageAddress src)) <|
    thenComplete fun s => andThen (ppWaitController s) fun s =>
    andThen (ppErase s) <|
    thenComplete fun s => andThen (ppWaitErase s) fun s =>
    andThen (stageWords s.cfg.pageWords s) fun s =>
    andThen (ppWrite s) <|
    thenComplete fun s => andThen (ppWaitWrite s) fun s =>
    andThen (ppRestoreRead s) ppReturn
  else .refused .notEnabled

end Sys2Proof.Machine
end

