-- ==== Sys2Proof/Machine/Receiver.lean ====
section
/-! DEFINITION. The XMODEM Receiver (spec/41_xmodem_receiver.md): its steps, and the symbols it sends (`CRQ`, `ACK`, `NAK`). -/

namespace Sys2Proof.Machine

/-! ## The symbols sent -/

/-- `CRQ` (R93): send the mode request, go on to the first marker. -/
def execCrq (s : State) : Result :=
  if s.receiverAt .awaitReq then .next ((s.txByte symCRQ).goto .awaitMark) else .refused .notEnabled

/-- `ACK`: the answer to an accepted packet (R108), and to `EOT`, which ends the session (R112). -/
def execAck (s : State) : Result :=
  if s.receiverAt .ackSend then .next ((s.txByte symACK).goto .hdrMark)
  else if s.receiverAt .termSend then .next ((s.txByte symACK).setDone.goto .termEnd)
  else .refused .notEnabled

/-- `NAK` (R110): roll back, send, back to the marker. -/
def execNak (s : State) : Result :=
  if s.receiverAt .rejecting then .next s.returnFromMismatch else .refused .notEnabled

/-! ## The bytes received -/

/-- A byte at a marker position: `SOH` and `EOT` are recognised (R94, R95), any other byte is dropped (R96, D9; log 21). -/
def State.marker (s : State) (b : Byte) : State :=
  if b = symSOH then s.goto .hdrSeq
  else if b = symEOT then s.goto .termSend
  else s

/-- A payload byte (R99, R100): stored at `WOFF + BCNT`; the 128th one advances `WOFF`. -/
def payloadByte (b : Byte) (s : State) : Result :=
  andThen (bufWrite (s.woff + s.bcnt.toNat) b s) fun t =>
    .next (if s.bcnt = 127 then { t with bcnt := 0, woff := t.woffUp, ctl := .payCrcHi }
           else { t with bcnt := t.bcnt + 1 })

/-- The step that reads the byte `b`, already taken from `RXQ` (R94 to R102). -/
def rcvByte (b : Byte) (s : State) : Result :=
  match s.ctl with
  | .awaitMark | .hdrMark => .next (s.marker b)
  | .hdrSeq => .next (s.goto .hdrCmp)
  | .hdrCmp => .next { s with bcnt := 0, ctl := .payData }
  | .payData => payloadByte b s
  | .payCrcHi => .next { s with rxHi := b, ctl := .payCrcLo }
  | .payCrcLo => .next { s with rxLo := b, ctl := .validating }
  | .awaitHold | .awaitReq | .validating | .ackCheck | .ackFlush | .ackAdv | .ackSend | .rejecting | .termSend
  | .termEnd => .refused .notEnabled

/-- The bytes of a wire unit one after another. -/
def rcvBytes : List Byte → State → Result
  | [], s => .next s
  | b :: bs, s => andThen (rcvByte b s) (rcvBytes bs)

/-- The reading step of a phase that reads: enabled when `RXQ` is not empty (R91); until then the state stays (log 10). -/
def rcvRead (s : State) : Result :=
  match s.rxq with
  | [] => .next s
  | b :: _ => rcvByte b (s.dropRx 1)

/-! ## Validating -/

/-- The span the CRC Engine reads, `BUF[WOFF-128 .. WOFF-1]` (R103). -/
def State.validSpan (s : State) : List Byte := s.bufSpan (s.woff - blockSize) blockSize

/-- The span exists (R37: it always does when the block validates). -/
def State.spanInBuf (s : State) : Bool := blockSize ≤ s.woff && s.cfg.inBuf s.woff 0

/-- The comparison of R103, all 16 bits (R83); a mismatch is the exception (R181). -/
def State.judge (s : State) : State :=
  if s.crcv = codeOf s.rxHi s.rxLo then s.goto .ackCheck else s.takeMismatch

/-- Validate (R103). -/
def validate (s : State) : Result :=
  if s.spanInBuf then andThen (execCrc16 s.validSpan s) fun t => .next t.judge else .fault .bufIndexOutside

/-! ## Acknowledging, and the flush -/

/-- The flush check (R104). -/
def State.flushCheck (s : State) : State :=
  if s.cfg.pageSize ≤ s.woff then { s with flushK := 0, ctl := .ackFlush } else s.goto .ackSend

/-- The bound of R105 and R186, before a commit starts (log 22); inside it, on to `ADV`. -/
def flushGuard (s : State) : Result :=
  if s.cfg.appLimit < s.taddr + s.cfg.pageSize then .fault (.commitOutsideAppRegion s.taddr)
  else .next (s.goto .ackAdv)

/-- Start of one commit of a flush (R105). -/
def flushStart (s : State) : Result :=
  andThen (flushGuard s) fun t => .next (t.ppInvoke t.taddr t.flushSrc)

/-- After one commit returned (R106), and the end of the flush with the last one (R107). -/
def State.flushAdvance (s : State) : State :=
  if (s.flushK + 1).toNat = s.cfg.nPages then
    { s with taddr := s.taddrNext, flushK := s.flushK + 1, woff := 0, ctl := .ackSend }
  else { s with taddr := s.taddrNext, flushK := s.flushK + 1, ctl := .ackFlush }

/-! ## The Receiver's step -/

/-- One step of the Receiver (the table of R90). At `HOLD` and `END` there is none. -/
def receiverStep (s : State) : Result :=
  match s.ctl with
  | .awaitHold => .next s
  | .awaitReq => execCrq s
  | .awaitMark | .hdrMark | .hdrSeq | .hdrCmp | .payData | .payCrcHi | .payCrcLo => rcvRead s
  | .validating => validate s
  | .ackCheck => .next s.flushCheck
  | .ackFlush => flushStart s
  | .ackAdv => .next s.flushAdvance
  | .ackSend => execAck s
  | .rejecting => execNak s
  | .termSend => execAck s
  | .termEnd => .next s

/-- One step of the block: the Page Programmer's while a commit runs (R145), otherwise the Receiver's. -/
def rcvStep (s : State) : Result :=
  if s.ppStep = .idle then receiverStep s else ppStep s

end Sys2Proof.Machine
end

