-- ==== Sys2Proof/Machine/WireUnits.lean ====
section
/-! DEFINITION. The two wire units received, as whole instructions (R116 to R118 of spec/41_xmodem_receiver.md): `SOH` and `EOT`.
Each is the sequence of the steps of Machine/Receiver.lean; the bytes are the instruction's operands, already taken from `RXQ`. -/

namespace Sys2Proof.Machine

/-- One page of a flush as one step (R118): the bound, the whole commit, the advance. -/
def flushPage (s : State) : Result :=
  andThen (flushGuard s) fun t =>
    andThen (execCommit t.taddr t.flushSrc t) fun u => .next u.flushAdvance

/-- `n` pages of a flush. -/
def flushPages : Nat → State → Result
  | 0, s => .next s
  | n + 1, s => andThen (flushPage s) (flushPages n)

/-- What follows the check of R104: all pages of the flush if there is one, then the acknowledge (R105 to R108). -/
def acknowledge (s : State) : Result :=
  if s.flushCheck.ctl = .ackFlush then andThen (flushPages s.cfg.nPages s.flushCheck) execAck else execAck s.flushCheck

/-- What follows `Validating` (R104 to R110). -/
def conclude (s : State) : Result :=
  if s.ctl = .ackCheck then acknowledge s else execNak s

/-- `SOH`, the whole packet (R116): marker, sequence number, complement, payload, code; validate; then acknowledge, with a flush
where a page is full, or reject. Enabled at a marker position. -/
def execSoh (seq cmp : Byte) (payload : List Byte) (crcHi crcLo : Byte) (s : State) : Result :=
  if payload.length = blockSize then
    if s.receiverAtMark then
      andThen (rcvBytes (symSOH :: packetBody seq cmp payload crcHi crcLo) s) fun t => andThen (validate t) conclude
    else .refused .notEnabled
  else .refused .illFormedPacket

/-- `EOT`, whole (R117): the marker, then the final acknowledge. Enabled at a marker position. -/
def execEot (s : State) : Result :=
  if s.receiverAtMark then andThen (rcvByte symEOT s) execAck else .refused .notEnabled

end Sys2Proof.Machine
end

