-- ==== Sys2Proof/Machine/Dispatch.lean ====
section
/-! DEFINITION. The meaning of every instruction, one arm per constructor (R60 of spec/30_encoding.md). -/

namespace Sys2Proof.Machine

def exec (i : Instr) (s : State) : Host.Outcome State Fault Refusal :=
  match i with
  -- symbols received
  | .soh seq cmp payload crcHi crcLo => Sys2Proof.Machine.execSoh seq cmp payload crcHi crcLo s
  | .eot => Sys2Proof.Machine.execEot s
  -- symbols sent
  | .crq => Sys2Proof.Machine.execCrq s
  | .ack => Sys2Proof.Machine.execAck s
  | .nak => Sys2Proof.Machine.execNak s
  -- commands to the memory controller
  | .nvmErase a => Sys2Proof.Machine.execNvmErase a s
  | .nvmFill o w => Sys2Proof.Machine.execNvmFill o w s
  | .nvmWrite a => Sys2Proof.Machine.execNvmWrite a s
  | .nvmRwwen => Sys2Proof.Machine.execNvmRwwen s
  -- internal operations
  | .crc16 bytes => Sys2Proof.Machine.execCrc16 bytes s
  | .commit pageAddress src => Sys2Proof.Machine.execCommit pageAddress src s

end Sys2Proof.Machine
end

