-- ==== Sys2Proof/Machine/Fetch.lean ====
section
/-! DEFINITION. Which instruction starts at the machine's sequencing state, what the sequencing does around its meaning, and how one
instruction is placed so that the next step runs it. -/

namespace Sys2Proof.Machine

/-- The command the Page Programmer issues at its step (R133, R135, R136, R138). -/
def State.fetchCommand (s : State) : Option Instr :=
  match s.ppStep with
  | .s3 => some (.nvmErase s.ppAddr)
  | .s5 => if s.cfg.inBuf s.stageSrc 2 then some (.nvmFill (2 * s.widx) s.stageWord) else none
  | .s6 => some (.nvmWrite s.ppAddr)
  | .s8 => some .nvmRwwen
  | .idle | .s1 | .s2 | .s4 | .s7 | .s9 => none

/-- The wire unit at the front of `RXQ` (R69), once all its bytes are there. -/
def State.fetchWireUnit (s : State) : Option Instr :=
  match decode s.cfg .received s.rxq with
  | .ok (i, _) => some i
  | .error _ => none

/-- The instruction that starts at the Receiver's phase: a wire unit at a marker position, a symbol at a sending phase, `CRC16` in
`Validating` (R103), `COMMIT` at a flush (R105). -/
def State.fetchReceiver (s : State) : Option Instr :=
  match s.ctl with
  | .awaitMark | .hdrMark => s.fetchWireUnit
  | .awaitReq => some .crq
  | .ackSend | .termSend => some .ack
  | .rejecting => some .nak
  | .validating => if s.spanInBuf then some (.crc16 s.validSpan) else none
  | .ackFlush => some (.commit s.taddr s.flushSrc)
  | .awaitHold | .hdrSeq | .hdrCmp | .payData | .payCrcHi | .payCrcLo | .ackCheck | .ackAdv | .termEnd => none

/-- The instruction that starts here. Between two instructions, and inside a packet or a commit that runs by fine steps, there is
none. -/
def fetch (s : State) : Option Instr :=
  if s.ppStep = .idle then s.fetchReceiver else s.fetchCommand

/-- What the sequencing does before the meaning: the bytes of a wire unit are taken from `RXQ` (R69: 133 or 1); a commit is guarded
by the bound of the application region (R105). -/
def beforeExec (i : Instr) (s : State) : Result :=
  match i with
  | .soh _ _ _ _ _ => .next (s.dropRx packetBytes)
  | .eot => .next (s.dropRx 1)
  | .commit _ _ => flushGuard s
  | .crq | .ack | .nak | .nvmErase _ | .nvmFill _ _ | .nvmWrite _ | .nvmRwwen | .crc16 _ => .next s

/-- What the sequencing does after the meaning: the comparison after `CRC16` (R103), the advance after a commit (R106), the next
Page Programmer step after a command (R133, R135, R136, R138). -/
def afterExec (i : Instr) (s : State) : State :=
  match i with
  | .crc16 _ => s.judge
  | .commit _ _ => s.flushAdvance
  | .nvmErase _ => s.ppGoto .s4
  | .nvmFill _ _ => s.staged
  | .nvmWrite _ => s.ppGoto .s7
  | .nvmRwwen => s.ppGoto .s9
  | .soh _ _ _ _ _ | .eot | .crq | .ack | .nak => s

/-- An instruction run whole, with the sequencing around it. -/
def runInstr (i : Instr) (s : State) : Result :=
  andThen (beforeExec i s) fun t => andThen (exec i t) fun u => .next (afterExec i u)

/-- The block runs the whole instruction that starts here (R116 to R118; log 8); where none starts, one fine step. -/
def unitStep (s : State) : Result :=
  match fetch s with
  | some i => runInstr i s
  | none => rcvStep s

/-- The Receiver at a marker position, keeping the one it is at. -/
def State.gotoMark (s : State) : State := if s.ctl.atMark then s else s.goto .hdrMark

/-- The state in which `i` is the instruction that starts here: the phase or the Page Programmer step that issues it, with its
operands in the registers it takes them from. A wire unit's bytes go to the front of `RXQ`, a word to be staged to `BUF` at its
offset in the page, so that word `w` at offset `o` is what step 5 stages. The two internal operations have no encoding and are placed
by their phases alone.
Step 5 issues even offsets inside the page only (R135), and no rule gives a fill at another offset an effect (R44). The placement
takes `o / 2` as the word index all the same (DESIGN CHOICE, log 20): a placed odd offset runs the fill of the even offset below it,
not the fault `exec` gives the odd one, and a placed offset past the buffer stops in step 5 with the buffer's fault. -/
def State.place (s : State) (i : Instr) : State :=
  match i with
  | .soh seq cmp payload hi lo =>
    { s.gotoMark.ppGoto .idle with rxq := symSOH :: packetBody seq cmp payload hi lo ++ s.rxq }
  | .eot => { s.gotoMark.ppGoto .idle with rxq := symEOT :: s.rxq }
  | .crq => (s.goto .awaitReq).ppGoto .idle
  | .ack => (if s.ctl = .termSend then s else s.goto .ackSend).ppGoto .idle
  | .nak => (s.goto .rejecting).ppGoto .idle
  | .nvmErase a => { s with ppAddr := a, ppStep := .s3 }
  | .nvmFill o w =>
    { s with ppSrc := 0, widx := o / 2, ppStep := .s5
             buf := Memory.writeAll s.buf (2 * (o / 2)) [lowByte w, highByte w] }
  | .nvmWrite a => { s with ppAddr := a, ppStep := .s6 }
  | .nvmRwwen => s.ppGoto .s8
  | .crc16 _ => (s.goto .validating).ppGoto .idle
  | .commit a _ => { (s.goto .ackFlush).ppGoto .idle with taddr := a }

/-- `s` with the instruction of a table word where the next step fetches it: placed, and the block's move put first in the script.
A word the decoder refuses (a reserved command code, a bit above the triple, an unrecognised symbol) is no instruction, and R72 does
not say what would become of one: its bytes go to the front of `RXQ` at a marker position, as if they had come over the wire
(DESIGN CHOICE, log 20). There a byte that is no marker is dropped (R96), but a byte 0x01 or 0x04 among them is taken as one. -/
def State.placeTableWord (s : State) (nbits w : Nat) : State :=
  match decodeTableWord nbits w with
  | some i => { s.place i with script := .unit :: s.script }
  | none => { s.gotoMark.ppGoto .idle with rxq := tableBytes nbits w ++ s.rxq, script := .unit :: s.script }

end Sys2Proof.Machine
end

