-- ==== Sys2Proof/Machine/Agents.lean ====
section
/-! DEFINITION. The moves of the agents (R10 of spec/10_state.md) and the order in which they move. -/

namespace Sys2Proof.Machine

/-- One move of one agent. A move that is not enabled changes nothing: `start` away from `HOLD` is ignored (R92), a blocked block
waits (R91), a controller with nothing outstanding has no step (R156), there is no byte to take (log 7). -/
def runEvent (e : Event) (s : State) : Result :=
  match e with
  | .rcv => rcvStep s
  | .unit => unitStep s
  | .start => .next s.bootStart
  | .readDone => .next s
  | .send b => .next (s.sndSend b)
  | .take => .next s.sndTake
  | .complete => .next s.nvmcComplete
  | .reset p => .next (s.hardReset p)
  | .irq => .next s.irqArrives
  | .takeIrq => .next s.irqTaken

/-- The move when the script is empty: the block's if it is enabled, else the controller's if it is busy (the fairness of R158),
else none: the block waits (R91, R182; log 7). -/
def State.defaultEvent (s : State) : Event :=
  if s.rcvEnabled then .rcv else if s.nvmBusy then .complete else .rcv

/-- The next move: the script's oldest, or the default. -/
def State.nextEvent (s : State) : Event :=
  match s.script with
  | [] => s.defaultEvent
  | e :: _ => e

/-- The script without the move that is being made. -/
def State.popScript (s : State) : State := { s with script := s.script.drop 1 }

/-- One step of the machine in an admitted configuration. -/
def agentStep (s : State) : Result := runEvent s.nextEvent s.popScript

end Sys2Proof.Machine
end

