-- ==== Sys2Proof/Machine/Step.lean ====
section
/-! DEFINITION. One step of the machine, and how an instruction is placed for the next step. -/

namespace Sys2Proof.Machine

/-- One step: one move of one agent (R10). A configuration that breaks R7 is refused (R188; log 32). -/
def step (s : State) : Host.Outcome State Fault Refusal :=
  if s.cfg.admitted then agentStep s else .refused .configRefused

/-- `s` with the instruction of a table word placed so that the very next step runs it (log 20). -/
def State.withFetchWord (s : State) (nbits w : Nat) : State := s.placeTableWord nbits w

end Sys2Proof.Machine
end

