-- ==== Sys2Proof/Safety.lean ====
section
/-! DEFINITION. What counts as a good state and a successful end, in the terms claims use. -/

namespace Sys2Proof.Machine

/-- The memories keep their canonical form, and list only places that exist (R27, R28, R29). -/
def State.memoryOk (s : State) : Prop :=
  Memory.wf s.buf = true ∧ Memory.below s.cfg.bufSize s.buf = true ∧
  Memory.wf s.pwb = true ∧ Memory.below s.cfg.pageWords s.pwb = true ∧
  Memory.wf s.nvm = true ∧ Memory.below s.cfg.nvmSize s.nvm = true ∧
  Memory.wf s.nvmDraw = true ∧ Memory.below s.cfg.nvmSize s.nvmDraw = true

/-- `WOFF` by phase (R36, R37, R104, R107): nothing is buffered before the first packet; a multiple of 128 with room for a packet at
the marker positions and while a packet comes in; a packet more once the payload is complete; exactly the pages of the flush while
one runs. -/
def State.woffOk (s : State) : Prop :=
  match s.ctl with
  | .awaitHold | .awaitReq | .awaitMark => s.woff = 0
  | .hdrMark | .hdrSeq | .hdrCmp | .payData | .ackSend | .termSend | .termEnd =>
    s.woff % blockSize = 0 ∧ s.woff + blockSize ≤ s.cfg.bufSize
  | .payCrcHi | .payCrcLo | .validating | .ackCheck | .rejecting =>
    s.woff % blockSize = 0 ∧ blockSize ≤ s.woff ∧ s.woff ≤ s.cfg.bufSize
  | .ackFlush | .ackAdv => s.woff = s.cfg.nPages * s.cfg.pageSize ∧ s.flushK.toNat < s.cfg.nPages

/-- `BCNT` counts only while a payload comes in (R14). -/
def State.bcntOk (s : State) : Prop := s.ctl = .payData ∨ s.bcnt = 0

/-- `TADDR` is a page start address inside the application region or its end (R38, R44, R106); from the start of a commit to the
advance after it, its whole page lies inside (R105, R186). -/
def State.taddrOk (s : State) : Prop :=
  s.taddr % s.cfg.pageSize = 0 ∧ s.cfg.appBase ≤ s.taddr ∧ s.taddr ≤ s.cfg.appLimit ∧
  (s.ctl = .ackAdv → s.taddr + s.cfg.pageSize ≤ s.cfg.appLimit)

/-- Nothing of the block's is outstanding (R31, R32): at most a foreign operation. -/
def State.noOwnOp (s : State) : Prop := s.nvmPend = none ∨ s.nvmPend = some .foreign

/-- The Page Programmer, the controller, `IE` and `RWW_EN` by step (R39, R52, R56, R141): what is outstanding, interrupts off from
step 1 to step 9, reads closed from the erase to the restore, the word index in range. -/
def State.programmerOk (s : State) : Prop :=
  match s.ppStep with
  | .idle => s.noOwnOp ∧ s.rwwEn = true
  | .s1 => s.noOwnOp ∧ s.rwwEn = true
  | .s2 => s.noOwnOp ∧ s.rwwEn = true ∧ s.ie = false
  | .s3 => s.nvmPend = none ∧ s.rwwEn = true ∧ s.ie = false
  | .s4 => (s.nvmPend = none ∨ s.nvmPend = some (.erase s.ppAddr)) ∧ s.rwwEn = false ∧ s.ie = false
  | .s5 => s.nvmPend = none ∧ s.rwwEn = false ∧ s.ie = false ∧ s.widx < s.cfg.pageWords
  | .s6 => s.nvmPend = none ∧ s.rwwEn = false ∧ s.ie = false
  | .s7 => (s.nvmPend = none ∨ s.nvmPend = some (.write s.ppAddr)) ∧ s.rwwEn = false ∧ s.ie = false
  | .s8 => s.nvmPend = none ∧ s.rwwEn = false ∧ s.ie = false
  | .s9 => s.nvmPend = none ∧ s.rwwEn = true ∧ s.ie = false

/-- A commit runs only while the Receiver waits at `ADV` (R145), on the page `TADDR` (R105), from its slice of `BUF` (R44). -/
def State.commitOk (s : State) : Prop :=
  s.ppStep = .idle ∨ (s.ctl = .ackAdv ∧ s.ppAddr = s.taddr ∧ s.ppSrc = s.flushSrc)

/-- `DONE` is 1 exactly at `Terminal`/`END` (R23, R112, R113). -/
def State.doneOk (s : State) : Prop := s.done = true ↔ s.ctl = .termEnd

/-- The invariant of the machine. -/
structure State.Inv (s : State) : Prop where
  admitted : s.cfg.admitted = true
  memory : s.memoryOk
  woff : s.woffOk
  bcnt : s.bcntOk
  taddr : s.taddrOk
  programmer : s.programmerOk
  commit : s.commitOk
  done : s.doneOk

/-- The bytes of `BUF` below the write position have a known value (R27, R37). -/
def State.bufKnown (s : State) : Prop := ∀ i, i < s.woff + s.bcnt.toNat → (Memory.read s.buf i).isSome = true

/-- A run has ended successfully (R113). -/
def State.ended (s : State) : Prop := s.ctl = .termEnd ∧ s.done = true ∧ s.ppStep = .idle

/-- What every packet leaves in the buffer and the registers before the verdict (R98 to R103): the payload at `WOFF`, the received
code, its own code. -/
def State.withPacket (s : State) (payload : List Byte) (hi lo : Byte) : State :=
  { s with buf := Memory.writeAll s.buf s.woff payload, bcnt := 0, rxHi := hi, rxLo := lo, crcv := crc16 s.cfg payload }

/-- What a rejected packet leaves (R110, R116): `WOFF` where it was, `NAK` sent, back at the marker. -/
def State.withReject (s : State) (payload : List Byte) (hi lo : Byte) : State :=
  { s.withPacket payload hi lo with txq := s.txq ++ [symNAK], ctl := .hdrMark }

/-- Program memory `m` is that of `s`, except that the `n` bytes from `a` are those of `BUF` from `src` (R42, R141). -/
def State.programmed (s : State) (m : List Host.Cell) (a src n : Nat) : Prop :=
  ∀ x, Memory.read m x = if a ≤ x ∧ x < a + n then some (s.bufByte (src + (x - a))) else Memory.read s.nvm x

end Sys2Proof.Machine
end

