-- ==== Sys2Proof/Certificates/Slice0/Obligations.lean ====
section
/-! DEFINITION. The statements for the provers, from the numbered rules of spec/. Where a statement gives the next state as a record
update, every field it does not name is unchanged: that is the instruction's frame. -/

open Sys2Proof Sys2Proof.Machine

/-! ## Agents and sequencing -/

/-- R210, R211: reset, from every state. The in-flight page becomes unspecified, every other byte of program memory stays.
What R211 leaves to the platform is the event's argument (the model's choice, log 6). -/
def Obligations.ResetReturnsTheBlockToHold : Prop :=
  ∀ (s : State) (p : PlatformReset), ∃ t, runEvent (.reset p) s = .next t ∧
    t.ctl = .awaitHold ∧ t.bcnt = 0 ∧ t.woff = 0 ∧ t.taddr = s.cfg.appBase ∧ t.flushK = 0 ∧
    t.ppStep = .idle ∧ t.done = false ∧ t.rwwEn = true ∧ t.cfg = s.cfg ∧
    t.ie = p.ie ∧ t.rxq = p.rxq ∧ t.txq = p.txq ∧
    (∀ a, s.nvmPend = some (.erase a) ∨ s.nvmPend = some (.write a) → t.nvmBusy = false) ∧
    (s.noOwnOp → t.nvmPend = if p.foreignBusy then some .foreign else none) ∧
    (∀ i, Memory.read t.buf i = none ∧ Memory.read t.pwb i = none) ∧
    (∀ a, t.nvmByte a = if s.inFlight a then none else Memory.read s.nvm a) ∧
    (∀ a, s.inFlight a = false → t.storedByte a = s.storedByte a)

/-- R92: `start` creates the session at `AwaitStart`/`HOLD` and is ignored anywhere else. -/
def Obligations.StartCreatesTheSession : Prop :=
  ∀ s : State,
    (s.receiverAt .awaitHold = true →
      runEvent .start s =
        .next { s with ctl := .awaitReq, woff := 0, taddr := s.cfg.appBase, done := false, bcnt := 0, flushK := 0 }) ∧
    (s.receiverAt .awaitHold = false → runEvent .start s = .next s)

/-- R188: a configuration that breaks a constraint of R7 is refused before any step (that `step` itself answers so, at every state of
such a configuration, is the model's choice, log 32). -/
def Obligations.BrokenConfigurationIsRefused : Prop :=
  ∀ s : State,
    ¬ ((s.cfg.pageSize = 64 ∨ (0 < s.cfg.pageSize ∧ s.cfg.pageSize % 128 = 0)) ∧ 8 ≤ s.cfg.addrWidth ∧
       s.cfg.nvmSize % s.cfg.pageSize = 0 ∧ s.cfg.nvmSize ≤ 2 ^ s.cfg.addrWidth ∧
       s.cfg.appBase % s.cfg.pageSize = 0 ∧ s.cfg.appLimit % s.cfg.pageSize = 0 ∧
       s.cfg.appBase < s.cfg.appLimit ∧ s.cfg.appLimit < s.cfg.nvmSize) →
    step s = .refused .configRefused

/-- R69, R116, R117: when the bytes at a marker position decode to a wire unit, a whole-unit step takes exactly its bytes and is
`exec` of it (that a step may be a whole unit is the model's choice, log 8). -/
def Obligations.StepRunsTheWireUnit : Prop :=
  ∀ (s : State) (i : Instr) (rest : List Byte) (es : List Event),
    s.cfg.admitted = true → s.script = .unit :: es → s.receiverAtMark = true →
    decode s.cfg .received s.rxq = .ok (i, rest) →
    step s = exec i { s with script := es, rxq := rest }

/-- R93, R103, R108, R110, R112, R133, R135, R136, R138: at a phase or a Page Programmer step that issues a symbol, a command or
`CRC16`, the block's step is `exec` of it and then what the sequencing does after it: the comparison after `CRC16`, the next step
after a command. At the start of a commit a whole-instruction step is the bound, `exec` of the commit, and the advance (R118; the whole-unit move is the
model's choice, log 8). -/
def Obligations.StepRunsTheIssuedInstruction : Prop :=
  ∀ (s : State) (i : Instr), s.cfg.admitted = true → fetch s = some i →
    (s.script = [] → (∀ a o, i ≠ .commit a o) → s.receiverAtMark = false →
      step s = andThen (exec i s) fun t => .next (afterExec i t)) ∧
    (∀ es a o, s.script = .unit :: es → i = .commit a o →
      step s = andThen (flushGuard { s with script := es }) fun t =>
        andThen (exec i t) fun u => .next u.flushAdvance)

/-- R116, R117, R118: an instruction run whole ends where the block's fine steps, with the controller completing what it is given
(R158), end (the default order of the moves, the whole-unit move, and the controller completing at once inside a commit are the
model's reading: log 7, log 8, log 27). -/
def Obligations.WholeInstructionIsItsFineSteps : Prop :=
  ∀ (s t : State) (i : Instr), s.cfg.admitted = true → s.script = [] → fetch s = some i → runInstr i s = .next t →
    ∃ n, Host.Core.run Sys2Proof.core n s = .next t

/-- R91, R92, R113, R132, R134, R137, R212: a step that is not enabled changes nothing: a reading phase without a byte,
`Terminal`/`END`, `HOLD`, and a wait step while the controller is busy (that the answer is the same state is the model's, log 10). -/
def Obligations.BlockedStepChangesNothing : Prop :=
  ∀ s : State,
    (s.ppStep = .idle ∧ ((s.ctl.reads = true ∧ s.rxq = []) ∨ s.ctl = .termEnd ∨ s.ctl = .awaitHold)) ∨
    ((s.ppStep = .s2 ∨ s.ppStep = .s4 ∨ s.ppStep = .s7) ∧ s.nvmBusy = true) →
    runEvent .rcv s = .next s

/-! ## The symbols sent and received -/

/-- R93: `CRQ`. -/
def Obligations.CrqSendsTheModeRequest : Prop :=
  ∀ s : State, s.receiverAt .awaitReq = true →
    exec .crq s = .next { s with txq := s.txq ++ [0x43], ctl := .awaitMark }

/-- R108: `ACK` after an accepted packet. -/
def Obligations.AckAnswersAnAcceptedPacket : Prop :=
  ∀ s : State, s.receiverAt .ackSend = true →
    exec .ack s = .next { s with txq := s.txq ++ [0x06], ctl := .hdrMark }

/-- R112: `ACK` after `EOT` ends the session. -/
def Obligations.AckEndsTheSession : Prop :=
  ∀ s : State, s.receiverAt .termSend = true →
    exec .ack s = .next { s with txq := s.txq ++ [0x06], done := true, ctl := .termEnd }

/-- R110: `NAK` rolls `WOFF` back by 128 and returns to the marker. `WOFF` is at least 128 there (R37). -/
def Obligations.NakRollsTheOffsetBack : Prop :=
  ∀ s : State, s.receiverAt .rejecting = true → 128 ≤ s.woff → s.woff ≤ s.cfg.bufSize →
    exec .nak s = .next { s with woff := s.woff - 128, txq := s.txq ++ [0x15], ctl := .hdrMark }

/-- R117: `EOT` at either marker position, through the step that runs it: the byte is consumed, `ACK` is sent, `DONE` is set; the
buffer is not flushed (R114). -/
def Obligations.EotEndsTheSession : Prop :=
  ∀ s : State, s.receiverAtMark = true →
    exec .eot s = .next { s with txq := s.txq ++ [0x06], done := true, ctl := .termEnd } ∧
    (∀ rest, s.cfg.admitted = true → s.rxq = 0x04 :: rest → ∀ es, s.script = .unit :: es →
      step s = .next { s with script := es, rxq := rest, txq := s.txq ++ [0x06], done := true, ctl := .termEnd })

/-- R94, R95, R96: the byte read at either marker position: `SOH` starts a packet, `EOT` ends the transmission, any other byte is
consumed and has no other effect. -/
def Obligations.MarkerIsClassified : Prop :=
  ∀ (s : State) (b : Byte) (rest : List Byte),
    s.cfg.admitted = true → s.script = [] → s.receiverAtMark = true → s.rxq = b :: rest →
    (b = 0x01 → step s = .next { s with rxq := rest, ctl := .hdrSeq }) ∧
    (b = 0x04 → step s = .next { s with rxq := rest, ctl := .termSend }) ∧
    (b ≠ 0x01 → b ≠ 0x04 → step s = .next { s with rxq := rest })

/-- R97, R98: the sequence number and its complement are discarded; the complement starts the payload. -/
def Obligations.HeaderBytesAreDiscarded : Prop :=
  ∀ (s : State) (b : Byte) (rest : List Byte),
    s.cfg.admitted = true → s.script = [] → s.ppStep = .idle → s.rxq = b :: rest →
    (s.ctl = .hdrSeq → step s = .next { s with rxq := rest, ctl := .hdrCmp }) ∧
    (s.ctl = .hdrCmp → step s = .next { s with rxq := rest, bcnt := 0, ctl := .payData })

/-- R99, R100: a payload byte is stored at `WOFF + BCNT`, whatever its value; the 128th advances `WOFF` by 128. The room for the
packet is R37's. -/
def Obligations.PayloadByteIsStored : Prop :=
  ∀ (s : State) (b : Byte) (rest : List Byte),
    s.cfg.admitted = true → s.script = [] → s.ppStep = .idle → s.ctl = .payData → s.rxq = b :: rest →
    s.woff + 128 ≤ s.cfg.bufSize →
    (s.bcnt.toNat < 127 →
      step s = .next { s with rxq := rest, buf := Memory.write s.buf (s.woff + s.bcnt.toNat) b, bcnt := s.bcnt + 1 }) ∧
    (s.bcnt.toNat = 127 →
      step s = .next { s with rxq := rest, buf := Memory.write s.buf (s.woff + 127) b, bcnt := 0
                              woff := s.woff + 128, ctl := .payCrcHi })

/-- R101, R102: the code bytes, high byte first. -/
def Obligations.CodeBytesAreLatched : Prop :=
  ∀ (s : State) (b : Byte) (rest : List Byte),
    s.cfg.admitted = true → s.script = [] → s.ppStep = .idle → s.rxq = b :: rest →
    (s.ctl = .payCrcHi → step s = .next { s with rxq := rest, rxHi := b, ctl := .payCrcLo }) ∧
    (s.ctl = .payCrcLo → step s = .next { s with rxq := rest, rxLo := b, ctl := .validating })

/-- R103, with R41 and R66 for the received code: the span just received is checked against the code, high byte first. -/
def Obligations.ValidatingComparesTheCode : Prop :=
  ∀ s : State, s.cfg.admitted = true → s.script = [] → s.receiverAt .validating = true →
    128 ≤ s.woff → s.woff ≤ s.cfg.bufSize →
    step s = .next { s with
      crcv := crc16 s.cfg (s.bufSpan (s.woff - 128) 128)
      ctl := if (crc16 s.cfg (s.bufSpan (s.woff - 128) 128)).toNat = 256 * s.rxHi.toNat + s.rxLo.toNat
             then .ackCheck else .rejecting }

/-- R104: a flush starts exactly when `WOFF` has reached the page size. -/
def Obligations.FlushCheckComparesWithThePage : Prop :=
  ∀ s : State, s.cfg.admitted = true → s.script = [] → s.receiverAt .ackCheck = true →
    (s.cfg.pageSize ≤ s.woff → step s = .next { s with flushK := 0, ctl := .ackFlush }) ∧
    (s.woff < s.cfg.pageSize → step s = .next { s with ctl := .ackSend })

/-- R105, R186: a commit is started inside the application region; past it the machine faults before the commit (that
`TADDR + PAGE_SIZE` is compared as a full number, not modulo the width of `TADDR`, is the model's reading, log 22). -/
def Obligations.FlushStartsOrFaultsAtTheBound : Prop :=
  ∀ s : State, s.cfg.admitted = true → s.script = [] → s.receiverAt .ackFlush = true →
    (s.taddr + s.cfg.pageSize ≤ s.cfg.appLimit →
      step s = .next { s with ctl := .ackAdv, ppAddr := s.taddr, ppSrc := s.flushK.toNat * s.cfg.pageSize, ppStep := .s1 }) ∧
    (s.cfg.appLimit < s.taddr + s.cfg.pageSize → step s = .fault (.commitOutsideAppRegion s.taddr))

/-- R106, R107: after a commit the target address and the page count advance; with the last page of the flush `WOFF` returns to 0 and
the acknowledge is next. Two pages make a flush when `PAGE_SIZE` is 64, one otherwise. -/
def Obligations.FlushAdvancesPageByPage : Prop :=
  ∀ s : State, s.cfg.admitted = true → s.script = [] → s.receiverAt .ackAdv = true →
    s.taddr + s.cfg.pageSize ≤ s.cfg.appLimit →
    (s.cfg.pageSize = 64 → s.flushK = 0 →
      step s = .next { s with taddr := s.taddr + 64, flushK := 1, ctl := .ackFlush }) ∧
    (s.cfg.pageSize = 64 → s.flushK = 1 →
      step s = .next { s with taddr := s.taddr + 64, flushK := 2, woff := 0, ctl := .ackSend }) ∧
    (s.cfg.pageSize ≠ 64 → s.flushK = 0 →
      step s = .next { s with taddr := s.taddr + s.cfg.pageSize, flushK := 1, woff := 0, ctl := .ackSend })

/-! ## The whole packet -/

/-- R116 with R110, R191: a packet whose code is wrong is stored above `WOFF`, answered with `NAK`, and nothing else remains of it. -/
def Obligations.WrongCodeIsRejected : Prop :=
  ∀ (s : State) (seq cmp : Byte) (payload : List Byte) (hi lo : Byte),
    s.cfg.admitted = true → s.receiverAtMark = true → payload.length = 128 → s.woff + 128 ≤ s.cfg.bufSize →
    crc16 s.cfg payload ≠ codeOf hi lo →
    exec (.soh seq cmp payload hi lo) s = .next
      { s with buf := Memory.writeAll s.buf s.woff payload, bcnt := 0, rxHi := hi, rxLo := lo
               crcv := crc16 s.cfg payload, txq := s.txq ++ [0x15], ctl := .hdrMark }

/-- R116 with R104 and R108: a packet with a right code that does not fill a page is stored and acknowledged; `TADDR` and program
memory stay. -/
def Obligations.AcceptedPacketIsStored : Prop :=
  ∀ (s : State) (seq cmp : Byte) (payload : List Byte) (hi lo : Byte),
    s.cfg.admitted = true → s.receiverAtMark = true → payload.length = 128 → s.woff + 128 < s.cfg.pageSize →
    crc16 s.cfg payload = codeOf hi lo →
    exec (.soh seq cmp payload hi lo) s = .next
      { s with buf := Memory.writeAll s.buf s.woff payload, bcnt := 0, rxHi := hi, rxLo := lo
               crcv := crc16 s.cfg payload, woff := s.woff + 128, txq := s.txq ++ [0x06], ctl := .hdrMark }

/-- R116 with R105 to R109 and R141: a packet with a right code that fills the buffer is stored, the flush commits the whole buffer to
`PAGE_SIZE`-sized pages from `TADDR` upward, and only then is the `ACK` sent (R53). Every other byte of program memory stays; `IE` is
what it was; two pages for a 64-byte page, one otherwise (the draw counters are the model's own, log 5; the controller
completes each operation at once, log 27). -/
def Obligations.FullBufferIsCommittedThenAcknowledged : Prop :=
  ∀ (s : State) (seq cmp : Byte) (payload : List Byte) (hi lo : Byte),
    s.cfg.admitted = true → s.receiverAtMark = true → payload.length = 128 →
    s.woff + 128 = s.cfg.nPages * s.cfg.pageSize →
    crc16 s.cfg payload = codeOf hi lo →
    s.taddr % s.cfg.pageSize = 0 → s.taddr + s.cfg.nPages * s.cfg.pageSize ≤ s.cfg.appLimit → s.noOwnOp →
    ∃ m : List Host.Cell,
      exec (.soh seq cmp payload hi lo) s = .next
        { s with buf := Memory.writeAll s.buf s.woff payload, bcnt := 0, rxHi := hi, rxLo := lo
                 crcv := crc16 s.cfg payload, woff := 0, txq := s.txq ++ [0x06], ctl := .hdrMark
                 taddr := s.taddr + s.cfg.nPages * s.cfg.pageSize, flushK := BitVec.ofNat 2 s.cfg.nPages
                 ppAddr := s.taddr + (s.cfg.nPages - 1) * s.cfg.pageSize
                 ppSrc := (s.cfg.nPages - 1) * s.cfg.pageSize, widx := s.cfg.pageWords, savedIe := s.ie
                 nvm := m, nvmPend := none, rwwEn := true, pwb := []
                 pwbDraw := s.fresh + (s.cfg.nPages - 1), fresh := s.fresh + s.cfg.nPages } ∧
      (s.withPacket payload hi lo).programmed m s.taddr 0 (s.cfg.nPages * s.cfg.pageSize)

/-- R86: with a polynomial whose constant term is set, a packet whose payload differs in exactly one bit from the payload its code was
computed over is always rejected. -/
def Obligations.SingleBitErrorIsRejected : Prop :=
  ∀ (s : State) (seq cmp : Byte) (payload : List Byte) (i j : Nat),
    s.cfg.admitted = true → s.receiverAtMark = true → payload.length = 128 → s.woff + 128 ≤ s.cfg.bufSize →
    s.cfg.crcPoly.getLsbD 0 = true → i < 128 → j < 8 →
    exec (.soh seq cmp (payload.modify i (· ^^^ (1#8 <<< j)))
        (highByte (crc16 s.cfg payload)) (lowByte (crc16 s.cfg payload))) s =
      .next (s.withReject (payload.modify i (· ^^^ (1#8 <<< j)))
        (highByte (crc16 s.cfg payload)) (lowByte (crc16 s.cfg payload)))

/-- R119: a packet rejected and sent again with a right code ends where a right first attempt would have, but for one extra `NAK` in
`TXQ`. -/
def Obligations.RetryIsIdempotent : Prop :=
  ∀ (s t : State) (seq cmp seq' cmp' : Byte) (payload : List Byte) (hi lo hi' lo' : Byte),
    s.cfg.admitted = true → Memory.wf s.buf = true → s.woff + 128 ≤ s.cfg.bufSize →
    crc16 s.cfg payload = codeOf hi lo → crc16 s.cfg payload ≠ codeOf hi' lo' →
    exec (.soh seq cmp payload hi lo) s = .next t →
    ∃ u, exec (.soh seq' cmp' payload hi' lo') s = .next u ∧ u.woff = s.woff ∧ u.nvm = s.nvm ∧ u.taddr = s.taddr ∧
      t.txq = s.txq ++ [0x06] ∧
      exec (.soh seq cmp payload hi lo) u = .next { t with txq := s.txq ++ [0x15, 0x06] }

/-- R68: no state depends on the sequence number or its complement; any pair is accepted alike. -/
def Obligations.SequenceFieldsDoNotMatter : Prop :=
  ∀ (s : State) (seq cmp seq' cmp' : Byte) (payload : List Byte) (hi lo : Byte),
    exec (.soh seq cmp payload hi lo) s = exec (.soh seq' cmp' payload hi lo) s

/-! ## Page Programmer and controller -/

/-- R141 with R130 to R139: a commit to its return: the page holds the bytes of the slice of `BUF`, every other byte of program memory
stays, reads are open, nothing is outstanding, `IE` is what it was on entry (R143), the page write buffer is unspecified
(the controller completing what it is given is R141's premise, log 27; the draw counters are the model's own, log 5). -/
def Obligations.CommitProgramsExactlyOnePage : Prop :=
  ∀ (s : State) (a src : Nat),
    s.cfg.admitted = true → s.ppStep = .idle → s.noOwnOp → s.cfg.isPageAddr a = true →
    src + s.cfg.pageSize ≤ s.cfg.bufSize →
    ∃ m : List Host.Cell,
      exec (.commit a src) s = .next
        { s with ppAddr := a, ppSrc := src, widx := s.cfg.pageWords, savedIe := s.ie, nvm := m, nvmPend := none
                 rwwEn := true, pwb := [], pwbDraw := s.fresh, fresh := s.fresh + 1 } ∧
      s.programmed m a src s.cfg.pageSize ∧
      (Memory.wf s.nvm = true → Memory.wf m = true)

/-- R151: an erase command to an idle controller; until the completion the page is unspecified, every other byte stays. -/
def Obligations.EraseCommandStartsAnErase : Prop :=
  ∀ (s : State) (a : Nat), s.nvmBusy = false → s.cfg.isPageAddr a = true →
    ∃ t, exec (.nvmErase a) s = .next t ∧ t = { s with nvmPend := some (.erase a), rwwEn := false } ∧ t.nvmBusy = true ∧
      (∀ x, a ≤ x → x < a + s.cfg.pageSize → t.nvmByte x = none) ∧
      (∀ x, x < a ∨ a + s.cfg.pageSize ≤ x → t.nvmByte x = s.nvmByte x)

/-- R152: a fill command to an idle controller writes one word of the page write buffer, at once; a second fill of the same offset
replaces the word. -/
def Obligations.FillCommandStagesOneWord : Prop :=
  ∀ (s : State) (o : Nat) (w : Word), s.nvmBusy = false → o % 2 = 0 → o + 2 ≤ s.cfg.pageSize →
    ∃ t, exec (.nvmFill o w) s = .next t ∧ t = { s with pwb := Memory.write s.pwb (o / 2) w } ∧ t.nvmBusy = false ∧
      t.pwbWord (o / 2) = w ∧ ∀ i, i ≠ o / 2 → t.pwbWord i = s.pwbWord i

/-- R153: a write command to an idle controller; until the completion the page is unspecified, every other byte stays. -/
def Obligations.WriteCommandStartsAWrite : Prop :=
  ∀ (s : State) (a : Nat), s.nvmBusy = false → s.cfg.isPageAddr a = true →
    ∃ t, exec (.nvmWrite a) s = .next t ∧ t = { s with nvmPend := some (.write a), rwwEn := false } ∧ t.nvmBusy = true ∧
      (∀ x, a ≤ x → x < a + s.cfg.pageSize → t.nvmByte x = none) ∧
      (∀ x, x < a ∨ a + s.cfg.pageSize ≤ x → t.nvmByte x = s.nvmByte x)

/-- R154: a restore command to an idle controller opens reads, at once. -/
def Obligations.RestoreCommandOpensReads : Prop :=
  ∀ s : State, s.nvmBusy = false → exec .nvmRwwen s = .next { s with rwwEn := true }

/-- R150, R187: every command to a busy controller faults. -/
def Obligations.BusyControllerFaults : Prop :=
  ∀ (s : State) (a o : Nat) (w : Word), s.nvmBusy = true →
    exec (.nvmErase a) s = .fault .nvmCommandWhileBusy ∧ exec (.nvmFill o w) s = .fault .nvmCommandWhileBusy ∧
    exec (.nvmWrite a) s = .fault .nvmCommandWhileBusy ∧ exec .nvmRwwen s = .fault .nvmCommandWhileBusy

/-- The model's choice (log 16): an address that is no page start address, or a fill offset that is odd or past the page, faults. -/
def Obligations.InvalidCommandOperandFaults : Prop :=
  ∀ (s : State) (a o : Nat) (w : Word), s.nvmBusy = false →
    (¬ (a % s.cfg.pageSize = 0 ∧ a < s.cfg.nvmSize) →
      exec (.nvmErase a) s = .fault .nvmOperandInvalid ∧ exec (.nvmWrite a) s = .fault .nvmOperandInvalid) ∧
    (¬ (o % 2 = 0 ∧ o + 2 ≤ s.cfg.pageSize) → exec (.nvmFill o w) s = .fault .nvmOperandInvalid)

/-- R156: completion. An erase leaves `ERASED_BYTE` in every byte of its page; a write of an erased page leaves the staged words, low
byte first; a foreign operation touches nothing; every byte outside the page stays. The result for a page that was not erased is left
unspecified (the model's choice, log 15). That a foreign operation changes no byte of `NVM` is the model's reading (log 30; R156 says
"nothing the block can observe"). The draw counters are the model's own (log 5). The cells of `NVM` before the completion are the raw
list's, which keeps them while the operation is outstanding (the model's choice, log 14). -/
def Obligations.CompletionGivesThePageItsBytes : Prop :=
  ∀ (s : State), s.cfg.admitted = true →
    (∀ a, s.nvmPend = some (.erase a) →
      ∃ m, runEvent .complete s = .next { s with nvm := m, nvmPend := none } ∧
        ∀ x, Memory.read m x = if a ≤ x ∧ x < a + s.cfg.pageSize then some s.cfg.erasedByte else Memory.read s.nvm x) ∧
    (∀ a, s.nvmPend = some (.write a) →
      ∃ m d, runEvent .complete s =
          .next { s with nvm := m, nvmDraw := d, nvmPend := none, pwb := [], pwbDraw := s.fresh, fresh := s.fresh + 1 } ∧
        (∀ x, x < a ∨ a + s.cfg.pageSize ≤ x →
          Memory.read m x = Memory.read s.nvm x ∧ Memory.read d x = Memory.read s.nvmDraw x) ∧
        ((∀ k, k < s.cfg.pageSize → Memory.read s.nvm (a + k) = some s.cfg.erasedByte) →
          d = s.nvmDraw ∧ ∀ i, i < s.cfg.pageWords → Memory.read m (a + 2 * i) = some (lowByte (s.pwbWord i)) ∧
            Memory.read m (a + 2 * i + 1) = some (highByte (s.pwbWord i))) ∧
        (∀ k, k < s.cfg.pageSize → Memory.read s.nvm (a + k) ≠ some s.cfg.erasedByte →
          ∀ x, a ≤ x → x < a + s.cfg.pageSize → Memory.read m x = none)) ∧
    (s.nvmPend = some .foreign → runEvent .complete s = .next { s with nvmPend := none })

/-- R157, R29, R47: while `RWW_EN` = 1 and `NVM_BUSY` = 0 an observer reads the byte the memory holds at each address, a byte of no
known value among them, and the read changes nothing, so a second read gives the same bytes. (In the window it gets free values, of
which nothing is stated.) A read past the end of the memory faults (the model's choice, log 16). -/
def Obligations.ObserverReadsStoredBytes : Prop :=
  ∀ (s : State) (addr n : Nat),
    (addr + n ≤ s.cfg.nvmSize →
      ∃ bs t, memRead addr n s = .ok (bs, t) ∧ bs.length = n ∧ t.nvm = s.nvm ∧ t.nvmPend = s.nvmPend ∧
        (s.rwwEn = true → s.nvmBusy = false →
          t = s ∧ ∀ k, k < n → bs[k]? = some (s.storedByte (addr + k)) ∧
            ∀ b, Memory.read s.nvm (addr + k) = some b → bs[k]? = some b)) ∧
    (s.cfg.nvmSize < addr + n → memRead addr n s = .error .nvmOperandInvalid)

/-- R131, R139, R143: the interrupt guard. Step 1 saves and clears `IE` in one step; step 9 puts the saved value back and returns. -/
def Obligations.InterruptGuardSavesAndRestores : Prop :=
  ∀ s : State, s.cfg.admitted = true → s.script = [] →
    (s.ppStep = .s1 → step s = .next { s with savedIe := s.ie, ie := false, ppStep := .s2 }) ∧
    (s.ppStep = .s9 → step s = .next { s with ie := s.savedIe, ppStep := .idle })

/-- R132, R134, R137: the wait steps go on once the controller is idle; step 4 resets the word index. -/
def Obligations.WaitStepsGoOnWhenIdle : Prop :=
  ∀ s : State, s.cfg.admitted = true → s.script = [] → s.nvmBusy = false →
    (s.ppStep = .s2 → step s = .next { s with ppStep := .s3 }) ∧
    (s.ppStep = .s4 → step s = .next { s with widx := 0, ppStep := .s5 }) ∧
    (s.ppStep = .s7 → step s = .next { s with ppStep := .s8 })

/-- R133, R136, R138: the steps that issue a command without operands from `BUF`. -/
def Obligations.CommandStepsIssueTheirCommand : Prop :=
  ∀ s : State, s.cfg.admitted = true → s.script = [] → s.nvmBusy = false → s.cfg.isPageAddr s.ppAddr = true →
    (s.ppStep = .s3 → step s = .next { s with nvmPend := some (.erase s.ppAddr), rwwEn := false, ppStep := .s4 }) ∧
    (s.ppStep = .s6 → step s = .next { s with nvmPend := some (.write s.ppAddr), rwwEn := false, ppStep := .s7 }) ∧
    (s.ppStep = .s8 → step s = .next { s with rwwEn := true, ppStep := .s9 })

/-- R135 with R42 and R67: step 5 stages one word, low byte from `BUF[PP_SRC + 2*WIDX]`, high byte from the byte after it, and goes to
step 6 with the last word. -/
def Obligations.StagingTakesWordsLittleEndian : Prop :=
  ∀ s : State, s.cfg.admitted = true → s.script = [] → s.ppStep = .s5 → s.nvmBusy = false →
    s.widx < s.cfg.pageWords → s.ppSrc + s.cfg.pageSize ≤ s.cfg.bufSize →
    ∃ w : Word, w.toNat = (s.bufByte (s.ppSrc + 2 * s.widx)).toNat + 256 * (s.bufByte (s.ppSrc + 2 * s.widx + 1)).toNat ∧
      step s = .next { s with pwb := Memory.write s.pwb s.widx w, widx := s.widx + 1
                              ppStep := if s.widx + 1 = s.cfg.pageWords then .s6 else .s5 }

/-- R42: byte identity. A word assembled from two bytes gives them back, the low one first. -/
def Obligations.WordBytesRoundTrip : Prop :=
  ∀ (b0 b1 : Byte) (w : Word), lowByte (wordOf b0 b1) = b0 ∧ highByte (wordOf b0 b1) = b1 ∧
    wordOf (lowByte w) (highByte w) = w ∧ codeOf (highByte w) (lowByte w) = w

/-! ## CRC Engine -/

/-- R80, R81: `CRC16` gives the code of its operand and writes nothing but `CRCV` (the caller's write, log 28); the code starts at
`CRC_INIT` and takes the bytes first to last, each by `CrcByte`: the byte is added at the high end, and eight shifts follow, each of
which adds `CRC_POLY` exactly when the bit shifted out of position 15 is 1. -/
def Obligations.CrcEngineComputesTheCode : Prop :=
  ∀ (s : State) (bytes : List Byte) (b : Byte) (poly c : Word),
    exec (.crc16 bytes) s = .next { s with crcv := crc16 s.cfg bytes } ∧
    crc16 s.cfg [] = s.cfg.crcInit ∧
    crc16 s.cfg (bytes ++ [b]) = crcByte s.cfg.crcPoly (crc16 s.cfg bytes) b ∧
    crcByte poly c b =
      (List.range 8).foldl (fun x _ => BitVec.ofNat 16 (2 * x.toNat) ^^^ if 2 ^ 15 ≤ x.toNat then poly else 0)
        (c ^^^ BitVec.ofNat 16 (256 * b.toNat))

/-- R85: the residue property, for every polynomial. -/
def Obligations.ResidueIsZero : Prop :=
  ∀ (c : Config) (bytes : List Byte), c.crcInit = 0 →
    crc16 c (bytes ++ [highByte (crc16 c bytes), lowByte (crc16 c bytes)]) = 0

/-- R86: linearity, for every polynomial. -/
def Obligations.CodeIsLinear : Prop :=
  ∀ (c : Config) (xs ys : List Byte), c.crcInit = 0 → xs.length = ys.length →
    crc16 c (List.zipWith (· ^^^ ·) xs ys) = crc16 c xs ^^^ crc16 c ys

/-! ## Encodings -/

/-- R61 to R66: decoding the encoding of a well-formed instruction gives it back, with what follows it untouched (the places of
a command's fields are the model's choice, log 18). -/
def Obligations.DecodeOfEncodeIsTheInstruction : Prop :=
  ∀ (c : Config) (i : Instr) (ch : Channel) (bytes rest : List Byte),
    c.admitted = true → i.wellFormed c = true → encode c i = some (ch, bytes) →
    decode c ch (bytes ++ rest) = .ok (i, rest)

/-- R62, R63, R69: on the wire each unit has one encoding: bytes that decode are the encoding of what they decode to, and what follows;
and what they decode to is well-formed. -/
def Obligations.WireBytesHaveOneMeaning : Prop :=
  ∀ (c : Config) (ch : Channel) (bytes rest : List Byte) (i : Instr),
    ch ≠ .command → decode c ch bytes = .ok (i, rest) →
    i.wellFormed c = true ∧ ∃ enc, encode c i = some (ch, enc) ∧ bytes = enc ++ rest

/-- R72: the four command codes without a meaning are refused by name (that the code stands in bits 2 to 0 of the command number is the
model's choice, log 18). -/
def Obligations.ReservedCommandsAreRefused : Prop :=
  ∀ (c : Config) (v : Nat), v < 2 ^ c.commandBits → v % 8 = 0 ∨ v % 8 = 5 ∨ v % 8 = 6 ∨ v % 8 = 7 →
    decodeCommandWord c v = .error (.reservedCommand (v % 8))

/-- R64, R65: words written out from the encoding tables decode to the instructions they stand for (the places of a
command's fields are the model's choice, log 18). -/
def Obligations.TableWordsDecode : Prop :=
  decode Config.standard .received [0b00000100] = .ok (.eot, []) ∧
  decode Config.standard .sent [0b01000011] = .ok (.crq, []) ∧
  decode Config.standard .sent [0b00000110] = .ok (.ack, []) ∧
  decode Config.standard .sent [0b00010101] = .ok (.nak, []) ∧
  decodeCommandWord Config.standard (0b001 + 8 * 0x0040) = .ok (.nvmErase 0x0040) ∧
  decodeCommandWord Config.standard (0b010 + 8 * (0x0002 + 0x10000 * 0x0302)) = .ok (.nvmFill 0x0002 0x0302) ∧
  decodeCommandWord Config.standard (0b011 + 8 * 0x0040) = .ok (.nvmWrite 0x0040) ∧
  decodeCommandWord Config.standard 0b100 = .ok .nvmRwwen

/-! ## The whole machine -/

/-- The state after reset of every admitted configuration meets the invariant (R211; the values the model chose are named in log 3
and log 4). -/
def Obligations.ResetStateIsGood : Prop :=
  ∀ c : Config, c.admitted = true → (State.resetOf c).Inv

/-- R14, R36 to R39, R44, R52, R145: every step of every agent keeps the invariant. -/
def Obligations.EveryStepKeepsTheInvariant : Prop :=
  ∀ s t : State, s.Inv → step s = .next t → t.Inv

/-- R37, R52, R187: from a good state no step is refused, and the only fault is the bound of the application region: no command ever
meets a busy controller, no buffer index is out of range. -/
def Obligations.GoodStatesStopOnlyAtTheRegionBound : Prop :=
  ∀ s : State, s.Inv →
    (∀ r, step s ≠ .refused r) ∧
    (∀ f, step s = .fault f → ∃ a, f = .commitOutsideAppRegion a ∧ s.cfg.appLimit < a + s.cfg.pageSize)

/-- R186: no byte of program memory outside the application region is ever written in a run without fault. That holds of a foreign
operation's completion too only because the model lets it change no byte (its reading, log 30), and of a commit at the bound because
the bound is compared as a full number (its reading, log 22). -/
def Obligations.BootRegionIsNeverWritten : Prop :=
  ∀ s t : State, s.Inv → step s = .next t →
    ∀ a, a < s.cfg.appBase ∨ s.cfg.appLimit ≤ a →
      Memory.read t.nvm a = Memory.read s.nvm a ∧ t.storedByte a = s.storedByte a

/-- R36: a step of any agent, from a good state, that ends at a marker position leaves `WOFF` at a packet boundary with room for a
packet: 0 for a 64-byte page, at most `PAGE_SIZE - 128` for a larger one. -/
def Obligations.OffsetAtAMarkerIsAPacketBoundary : Prop :=
  ∀ s t : State, s.Inv → step s = .next t → t.ctl.atMark = true →
    t.woff % 128 = 0 ∧ t.woff + 128 ≤ t.cfg.bufSize ∧ (t.cfg.pageSize = 64 → t.woff = 0) ∧
    (t.cfg.pageSize ≠ 64 → t.woff + 128 ≤ t.cfg.pageSize)

/-- R37: every byte of `BUF` below the write position was written since the reset, so no check and no staging reads an unspecified
one; every step keeps that. -/
def Obligations.BufferedBytesAreKnown : Prop :=
  ∀ s t : State, s.Inv → s.bufKnown → step s = .next t → t.bufKnown

/-- R30, R40, R73, R159, R160: who touches the streams, by the move that is made. The sender's `send` appends its byte to `RXQ` and
its `take` removes the oldest byte of `TXQ`, and neither changes anything else. The block's move, fine or whole, appends at most one
byte to `TXQ`, which is 'C', `ACK` or `NAK`, and takes bytes from the front of `RXQ` alone, at most one in a fine step. No other
move but a reset touches a stream; a reset leaves what the platform decides (the model's choice, log 6). -/
def Obligations.OutputIsOnlyTheThreeSymbols : Prop :=
  (∀ (s : State) (b : Byte), runEvent (.send b) s = .next { s with rxq := s.rxq ++ [b] } ∧
    runEvent .take s = .next { s with txq := s.txq.drop 1 }) ∧
  ∀ s t : State, step s = .next t →
    (s.nextEvent = .rcv ∨ s.nextEvent = .unit →
      t.txq = s.txq ∨ ∃ b : Byte, (b = 0x43 ∨ b = 0x06 ∨ b = 0x15) ∧ t.txq = s.txq ++ [b]) ∧
    (s.nextEvent = .rcv → t.rxq = s.rxq ∨ t.rxq = s.rxq.drop 1) ∧
    (s.nextEvent = .unit → ∃ n, t.rxq = s.rxq.drop n) ∧
    (∀ b, s.nextEvent = .send b → t.rxq = s.rxq ++ [b] ∧ t.txq = s.txq) ∧
    (s.nextEvent = .take → t.txq = s.txq.drop 1 ∧ t.rxq = s.rxq) ∧
    (∀ p, s.nextEvent = .reset p → t.rxq = p.rxq ∧ t.txq = p.txq) ∧
    (s.nextEvent = .start ∨ s.nextEvent = .readDone ∨ s.nextEvent = .complete ∨ s.nextEvent = .irq ∨
      s.nextEvent = .takeIrq → t.rxq = s.rxq ∧ t.txq = s.txq)

/-- R11: the configuration is no state; no step changes it. -/
def Obligations.ConfigurationNeverChanges : Prop :=
  ∀ s t : State, step s = .next t → t.cfg = s.cfg

/-- R27, R231: of the fine steps only a payload byte writes the receive buffer. -/
def Obligations.OnlyPayloadBytesWriteTheBuffer : Prop :=
  ∀ s t : State, step s = .next t → s.nextEvent ≠ .unit → (∀ p, s.nextEvent ≠ .reset p) →
    t.buf = s.buf ∨ (s.nextEvent = .rcv ∧ s.receiverAt .payData = true)

/-- R9, R40: of the fine steps only a completion and a reset change program memory, and only a fill, a completion and a reset the page
write buffer. `NVM` is the raw list here, which keeps a page's old cells while an operation on it is outstanding, where R151 and R153
make them unspecified to every reader (the model's choice, log 14); its draws are the model's own (log 5). -/
def Obligations.MemoryChangesOnlyAtCompletion : Prop :=
  ∀ s t : State, step s = .next t → s.nextEvent ≠ .unit → s.nextEvent ≠ .complete → (∀ p, s.nextEvent ≠ .reset p) →
    t.nvm = s.nvm ∧ t.nvmDraw = s.nvmDraw ∧ (t.pwb = s.pwb ∨ (s.nextEvent = .rcv ∧ s.ppStep = .s5))

/-- R23: `DONE` is set only with the final `ACK` at `Terminal`, and cleared only by `start` and reset. -/
def Obligations.DoneIsSetOnlyByTheFinalAck : Prop :=
  ∀ s t : State, step s = .next t →
    (s.done = false → t.done = true → t.ctl = .termEnd ∧ t.ppStep = .idle ∧ t.txq = s.txq ++ [0x06]) ∧
    (s.done = true → t.done = false → (s.nextEvent = .start ∧ s.receiverAt .awaitHold = true) ∨ ∃ p, s.nextEvent = .reset p)

/-- R145: while a commit runs the block's step touches nothing of the Receiver's: it reads no byte and sends none. Nor does it write
`NVM`, which changes only at a completion (R40); that clause is about the raw list, which keeps a page's old cells from steps 3 and 6
to the completion (the model's choice, log 14), and about its draws (log 5). -/
def Obligations.ReceiverWaitsForTheCommit : Prop :=
  ∀ s t : State, s.ppStep ≠ .idle → runEvent .rcv s = .next t →
    t.ctl = s.ctl ∧ t.rxq = s.rxq ∧ t.txq = s.txq ∧ t.buf = s.buf ∧ t.woff = s.woff ∧ t.taddr = s.taddr ∧
    t.bcnt = s.bcnt ∧ t.rxHi = s.rxHi ∧ t.rxLo = s.rxLo ∧ t.crcv = s.crcv ∧ t.flushK = s.flushK ∧ t.done = s.done ∧
    t.nvm = s.nvm ∧ t.nvmDraw = s.nvmDraw

/-- R34, R189: no step of the block raises or clears an interrupt request; while `IE` = 0 a request is neither lost nor served
(requests as a count are the model's choice, log 26). -/
def Obligations.InterruptRequestsAreHeldOff : Prop :=
  ∀ s t : State,
    (runEvent .rcv s = .next t → t.irqPending = s.irqPending) ∧ (runEvent .unit s = .next t → t.irqPending = s.irqPending) ∧
    (s.ie = false → runEvent .takeIrq s = .next s) ∧
    (s.ie = true → 0 < s.irqPending → runEvent .takeIrq s = .next { s with irqPending := s.irqPending - 1 })
end

