-- ==== Sys2Proof/Laws/Memory.lean ====
section
/-! SUPPORT. The sparse memories: a read after a write, what a write leaves alone, and that every operation keeps the canonical form
and the bound on the addresses. -/

namespace Sys2Proof.Machine

variable {α : Type}

@[simp] theorem Memory.read_nil (a : Nat) : Memory.read ([] : List (Nat × α)) a = none := rfl

@[simp] theorem Memory.wf_nil : Memory.wf ([] : List (Nat × α)) = true := rfl

@[simp] theorem Memory.below_nil (n : Nat) : Memory.below n ([] : List (Nat × α)) = true := rfl

/-- The canonical form of a list that begins with an entry at `k`. -/
theorem Memory.wf_cons (k : Nat) (v : α) (m : List (Nat × α)) :
    Memory.wf ((k, v) :: m) = true ↔ (∀ c ∈ m, k < c.1) ∧ Memory.wf m = true := by
  simp [Memory.wf, List.all_eq_true]

/-- A read after a write: the value written at that address, the old value elsewhere. -/
theorem Memory.read_write (m : List (Nat × α)) (a : Nat) (v : α) (x : Nat) :
    Memory.read (Memory.write m a v) x = if x = a then some v else Memory.read m x := by
  induction m with
  | nil => simp [Memory.write, Memory.read]
  | cons c m ih =>
    obtain ⟨k, w⟩ := c
    unfold Memory.write
    split
    · simp [Memory.read]
    · split
      · next h => subst h; simp only [Memory.read]; split <;> simp_all
      · simp only [Memory.read, ih]; split
        · next h1 h2 h3 => subst h3; rw [if_neg (fun h => h2 h.symm)]
        · rfl

/-- Every entry of a written memory is the new one or an old one. -/
theorem Memory.mem_write {m : List (Nat × α)} {a : Nat} {v : α} {c : Nat × α} (h : c ∈ Memory.write m a v) :
    c = (a, v) ∨ c ∈ m := by
  induction m with
  | nil => simpa [Memory.write] using h
  | cons d m ih =>
    obtain ⟨k, w⟩ := d
    unfold Memory.write at h
    split at h
    · simpa using h
    · split at h
      · simp only [List.mem_cons] at h ⊢; tauto
      · simp only [List.mem_cons] at h ⊢
        rcases h with h | h
        · exact .inr (.inl h)
        · rcases ih h with h | h
          · exact .inl h
          · exact .inr (.inr h)

/-- A write keeps the canonical form. -/
theorem Memory.wf_write {m : List (Nat × α)} (h : Memory.wf m = true) (a : Nat) (v : α) :
    Memory.wf (Memory.write m a v) = true := by
  induction m with
  | nil => rfl
  | cons c m ih =>
    obtain ⟨k, w⟩ := c
    have hc := (Memory.wf_cons k w m).1 h
    unfold Memory.write
    split
    · next hlt =>
      refine (Memory.wf_cons _ _ _).2 ⟨fun d hd => ?_, h⟩
      rcases List.mem_cons.1 hd with rfl | hd
      · exact hlt
      · exact Nat.lt_trans hlt (hc.1 d hd)
    · split
      · next heq => subst heq; exact (Memory.wf_cons _ _ _).2 hc
      · next h1 h2 =>
        refine (Memory.wf_cons _ _ _).2 ⟨fun d hd => ?_, ih hc.2⟩
        rcases Memory.mem_write hd with rfl | hd
        · show k < a; omega
        · exact hc.1 d hd

/-- A write at an address below `n` keeps the bound. -/
theorem Memory.below_write {m : List (Nat × α)} {n a : Nat} (h : Memory.below n m = true) (ha : a < n) (v : α) :
    Memory.below n (Memory.write m a v) = true := by
  simp only [Memory.below, List.all_eq_true, decide_eq_true_eq] at h ⊢
  intro c hc
  rcases Memory.mem_write hc with rfl | hc
  · exact ha
  · exact h c hc

/-- A read after a block was written: the block's value inside it, the old value outside. -/
theorem Memory.read_writeAll (m : List (Nat × α)) (a : Nat) (vs : List α) (x : Nat) :
    Memory.read (Memory.writeAll m a vs) x =
      if a ≤ x ∧ x < a + vs.length then vs[x - a]? else Memory.read m x := by
  induction vs generalizing m a with
  | nil => simp only [Memory.writeAll, List.length_nil]; rw [if_neg (by omega)]
  | cons v vs ih =>
    simp only [Memory.writeAll, ih, Memory.read_write, List.length_cons]
    by_cases h1 : a + 1 ≤ x ∧ x < a + 1 + vs.length
    · rw [if_pos h1, if_pos (by omega)]
      obtain ⟨k, hk⟩ : ∃ k, x - a = k + 1 := ⟨x - a - 1, by omega⟩
      rw [hk, List.getElem?_cons_succ]
      congr 1; omega
    · rw [if_neg h1]
      by_cases h2 : x = a
      · subst h2; simp
      · rw [if_neg h2, if_neg (by omega)]

/-- Writing a block keeps the canonical form. -/
theorem Memory.wf_writeAll {m : List (Nat × α)} (h : Memory.wf m = true) (a : Nat) (vs : List α) :
    Memory.wf (Memory.writeAll m a vs) = true := by
  induction vs generalizing m a with
  | nil => exact h
  | cons v vs ih => exact ih (Memory.wf_write h a v) (a + 1)

/-- Writing a block that ends at or below `n` keeps the bound. -/
theorem Memory.below_writeAll {m : List (Nat × α)} {n a : Nat} {vs : List α} (h : Memory.below n m = true)
    (ha : a + vs.length ≤ n) : Memory.below n (Memory.writeAll m a vs) = true := by
  induction vs generalizing m a with
  | nil => exact h
  | cons v vs ih =>
    simp only [List.length_cons] at ha
    exact ih (Memory.below_write h (by omega) v) (by omega)

/-- A read after a range was forgotten: nothing inside it, the old value outside. -/
theorem Memory.read_forget (m : List (Nat × α)) (a n x : Nat) :
    Memory.read (Memory.forget m a n) x = if a ≤ x ∧ x < a + n then none else Memory.read m x := by
  induction m with
  | nil => simp [Memory.forget, Memory.read]
  | cons c m ih =>
    obtain ⟨k, w⟩ := c
    simp only [Memory.forget] at ih ⊢
    by_cases hk : a ≤ k ∧ k < a + n
    · rw [List.filter_cons_of_neg (by simp [hk.1, hk.2])]
      rw [ih]
      simp only [Memory.read]
      split
      · rfl
      · next h => rw [if_neg (by intro hx; rw [hx] at h; exact h hk)]
    · rw [List.filter_cons_of_pos (by simp; omega)]
      simp only [Memory.read, ih]
      by_cases hx : x = k
      · subst hx; rw [if_pos rfl, if_neg hk, if_pos rfl]
      · rw [if_neg hx, if_neg hx]

/-- Forgetting a range keeps the canonical form. -/
theorem Memory.wf_forget {m : List (Nat × α)} (h : Memory.wf m = true) (a n : Nat) :
    Memory.wf (Memory.forget m a n) = true := by
  induction m with
  | nil => rfl
  | cons c m ih =>
    obtain ⟨k, w⟩ := c
    have hc := (Memory.wf_cons k w m).1 h
    simp only [Memory.forget] at ih ⊢
    rw [List.filter_cons]
    split
    · exact (Memory.wf_cons _ _ _).2 ⟨fun d hd => hc.1 d (List.mem_filter.1 hd).1, ih hc.2⟩
    · exact ih hc.2

/-- Forgetting a range keeps the bound. -/
theorem Memory.below_forget {m : List (Nat × α)} {n : Nat} (h : Memory.below n m = true) (a k : Nat) :
    Memory.below n (Memory.forget m a k) = true := by
  simp only [Memory.below, List.all_eq_true] at h ⊢
  exact fun c hc => h c (List.mem_filter.1 hc).1

/-- Writing twice at one address is writing the second value. -/
theorem Memory.write_write (m : List (Nat × α)) (a : Nat) (v w : α) :
    Memory.write (Memory.write m a v) a w = Memory.write m a w := by
  induction m with
  | nil => simp [Memory.write]
  | cons c m ih =>
    obtain ⟨k, u⟩ := c
    by_cases h1 : a < k
    · simp [Memory.write, h1]
    · by_cases h2 : a = k
      · subst h2; simp [Memory.write]
      · simp [Memory.write, h1, h2, ih]

/-- In canonical form a memory is what it reads as. -/
theorem Memory.ext_of_wf {m m' : List (Nat × α)} (h : Memory.wf m = true) (h' : Memory.wf m' = true)
    (he : ∀ a, Memory.read m a = Memory.read m' a) : m = m' := by
  induction m generalizing m' with
  | nil =>
    cases m' with
    | nil => rfl
    | cons c m' => obtain ⟨k, w⟩ := c; have := he k; simp [Memory.read] at this
  | cons c m ih =>
    obtain ⟨k, w⟩ := c
    have hc := (Memory.wf_cons k w m).1 h
    have unread : ∀ (l : List (Nat × α)) (x : Nat), (∀ d ∈ l, x < d.1) → Memory.read l x = none := by
      intro l
      induction l with
      | nil => intros; rfl
      | cons d l ihl =>
        intro x hx
        obtain ⟨j, u⟩ := d
        have := hx (j, u) (by simp)
        simp only [Memory.read]
        rw [if_neg (by simp at this; omega)]
        exact ihl x fun e he => hx e (by simp [he])
    cases m' with
    | nil => have := he k; simp [Memory.read] at this
    | cons c' m' =>
      obtain ⟨k', w'⟩ := c'
      have hc' := (Memory.wf_cons k' w' m').1 h'
      have hk : k = k' := by
        rcases Nat.lt_trichotomy k k' with hlt | heq | hlt
        · have h1 := he k
          rw [unread ((k', w') :: m') k (by
            intro d hd
            rcases List.mem_cons.1 hd with rfl | hd
            · exact hlt
            · exact Nat.lt_trans hlt (hc'.1 d hd))] at h1
          simp [Memory.read] at h1
        · exact heq
        · have h1 := he k'
          rw [unread ((k, w) :: m) k' (by
            intro d hd
            rcases List.mem_cons.1 hd with rfl | hd
            · exact hlt
            · exact Nat.lt_trans hlt (hc.1 d hd))] at h1
          simp [Memory.read] at h1
      subst hk
      have hw : w = w' := by have h1 := he k; simpa [Memory.read] using h1
      subst hw
      congr 1
      refine ih hc.2 hc'.2 fun a => ?_
      by_cases ha : a = k
      · subst ha; rw [unread m a hc.1, unread m' a hc'.1]
      · have h1 := he a; simpa [Memory.read, ha] using h1

end Sys2Proof.Machine
end

