-- ==== Sys2Proof/Laws/Params.lean ====
section
/-! SUPPORT. The parameters: what an admitted configuration satisfies (R7), the derived sizes, and register arithmetic that does not wrap
(R115). -/

namespace Sys2Proof

/-- The constraints of R7, as propositions. -/
theorem Config.admitted_iff (c : Config) :
    c.admitted = true ↔
      (c.pageSize = 64 ∨ (0 < c.pageSize ∧ c.pageSize % 128 = 0)) ∧ 8 ≤ c.addrWidth ∧
      c.nvmSize % c.pageSize = 0 ∧ c.nvmSize ≤ 2 ^ c.addrWidth ∧ c.appBase % c.pageSize = 0 ∧
      c.appLimit % c.pageSize = 0 ∧ c.appBase < c.appLimit ∧ c.appLimit < c.nvmSize := by
  simp [Config.admitted, and_assoc]

variable {c : Config}

theorem Config.pageSize_cases (h : c.admitted = true) :
    c.pageSize = 64 ∨ (128 ≤ c.pageSize ∧ c.pageSize % 128 = 0) := by
  rcases (Config.admitted_iff c).1 h with ⟨h1 | ⟨h1, h2⟩, -⟩
  · exact .inl h1
  · exact .inr ⟨by omega, h2⟩

/-- `BUF_SIZE` is the pages one flush commits: twice 64, or one larger page (R107). -/
theorem Config.nPages_mul (h : c.admitted = true) : c.nPages * c.pageSize = c.bufSize := by
  unfold Config.nPages Config.bufSize blockSize
  rcases Config.pageSize_cases h with h1 | ⟨h1, -⟩
  · rw [h1]; rfl
  · rw [if_neg (by omega), Nat.max_eq_left h1, Nat.one_mul]

theorem Config.nPages_pos (c : Config) : 0 < c.nPages := by unfold Config.nPages; split <;> decide

theorem Config.nPages_le (c : Config) : c.nPages ≤ 2 := by unfold Config.nPages; split <;> decide

/-- `FLUSH_K + 1` does not wrap before the last page of a flush (R106). -/
theorem flushK_succ {k : BitVec 2} {n : Nat} (hn : n ≤ 2) (h : k.toNat < n) : (k + 1).toNat = k.toNat + 1 := by
  rw [BitVec.toNat_add]; simp; omega

/-- A page is a whole number of words (R8). -/
theorem Config.pageWords_mul (h : c.admitted = true) : 2 * c.pageWords = c.pageSize := by
  unfold Config.pageWords
  rcases Config.pageSize_cases h with h1 | ⟨h1, h2⟩ <;> omega

theorem Config.bufSize_ge (c : Config) : 128 ≤ c.bufSize := by
  unfold Config.bufSize blockSize; exact Nat.le_max_right _ _

theorem Config.bufSize_mod (h : c.admitted = true) : c.bufSize % 128 = 0 := by
  unfold Config.bufSize blockSize
  rcases Config.pageSize_cases h with h1 | ⟨h1, h2⟩
  · rw [h1]; rfl
  · rw [Nat.max_eq_left h1]; exact h2

/-- A register of width `widthFor n` holds every number up to `n`. -/
theorem lt_two_pow_widthFor (n : Nat) : n < 2 ^ widthFor n := Nat.lt_log2_self

/-- `WOFF` holds every number up to `BUF_SIZE` (R16). -/
theorem Config.bufSize_lt (c : Config) : c.bufSize < 2 ^ c.woffWidth := lt_two_pow_widthFor _

/-- `WIDX` holds every number up to `PAGE_SIZE/2` (R21). -/
theorem Config.pageWords_lt (c : Config) : c.pageWords < 2 ^ c.widxWidth := lt_two_pow_widthFor _

/-- Every address of the memory fits in `ADDR_WIDTH` bits (R7). -/
theorem Config.nvmSize_le (h : c.admitted = true) : c.nvmSize ≤ 2 ^ c.addrWidth :=
  ((Config.admitted_iff c).1 h).2.2.2.1

theorem Config.appLimit_lt (h : c.admitted = true) : c.appLimit < c.nvmSize :=
  ((Config.admitted_iff c).1 h).2.2.2.2.2.2.2

/-- A page that starts below the end of the memory lies in it whole. -/
theorem Config.page_fits (h : c.admitted = true) {a : Nat} (ha : c.isPageAddr a = true) :
    a + c.pageSize ≤ c.nvmSize := by
  obtain ⟨-, -, hn, -⟩ := (Config.admitted_iff c).1 h
  simp only [Config.isPageAddr, Bool.and_eq_true, beq_iff_eq, decide_eq_true_eq] at ha
  obtain ⟨j, hj⟩ := Nat.dvd_of_mod_eq_zero hn
  obtain ⟨k, hk⟩ := Nat.dvd_of_mod_eq_zero ha.1
  have hlt : c.pageSize * k < c.pageSize * j := by rw [← hj, ← hk]; exact ha.2
  have hkj : k + 1 ≤ j := Nat.lt_of_mul_lt_mul_left hlt
  calc a + c.pageSize = c.pageSize * (k + 1) := by rw [hk]; ring
    _ ≤ c.pageSize * j := Nat.mul_le_mul_left _ hkj
    _ = c.nvmSize := hj.symm

/-- A page-aligned address whose page lies in the application region is a page start address (R105, R151). -/
theorem Config.isPageAddr_of_region (h : c.admitted = true) {a : Nat} (ha : a % c.pageSize = 0)
    (hl : a + c.pageSize ≤ c.appLimit) : c.isPageAddr a = true := by
  have := Config.appLimit_lt h
  simp only [Config.isPageAddr, Bool.and_eq_true, beq_iff_eq, decide_eq_true_eq]
  exact ⟨ha, by omega⟩

/-- A sum that fits does not wrap (R115). -/
theorem addMod_eq {w a b : Nat} (h : a + b < 2 ^ w) : addMod w a b = a + b := Nat.mod_eq_of_lt h

/-- A difference that is not negative does not wrap (R115). -/
theorem subMod_eq {w a b : Nat} (hb : b ≤ a) (ha : a < 2 ^ w) : subMod w a b = a - b := by
  unfold subMod
  rw [Nat.mod_eq_of_lt (Nat.lt_of_le_of_lt hb ha)]
  have : a + (2 ^ w - b) = (a - b) + 2 ^ w := by omega
  rw [this, Nat.add_mod_right, Nat.mod_eq_of_lt (by omega)]

namespace Machine

/-- `WOFF + 128` does not leave the range of `WOFF` while a payload has room (R36, R100). -/
theorem State.woffUp_eq {s : State} (h : s.woff + 128 ≤ s.cfg.bufSize) : s.woffUp = s.woff + 128 :=
  addMod_eq (Nat.lt_of_le_of_lt h s.cfg.bufSize_lt)

/-- `WOFF - 128` does not go below 0 after a payload (R110). -/
theorem State.woffDown_eq {s : State} (h : 128 ≤ s.woff) (h' : s.woff ≤ s.cfg.bufSize) :
    s.woffDown = s.woff - 128 :=
  subMod_eq h (Nat.lt_of_le_of_lt h' s.cfg.bufSize_lt)

/-- `TADDR + PAGE_SIZE` does not wrap in the application region (R106). -/
theorem State.taddrNext_eq {s : State} (ha : s.cfg.admitted = true) (h : s.taddr + s.cfg.pageSize ≤ s.cfg.appLimit) :
    s.taddrNext = s.taddr + s.cfg.pageSize :=
  addMod_eq (Nat.lt_of_lt_of_le (Nat.lt_of_le_of_lt h (Config.appLimit_lt ha)) (Config.nvmSize_le ha))

/-- `WIDX + 1` does not wrap while words are left (R135). -/
theorem State.widxNext_eq {s : State} (h : s.widx < s.cfg.pageWords) : s.widxNext = s.widx + 1 :=
  addMod_eq (Nat.lt_of_le_of_lt h s.cfg.pageWords_lt)

end Machine

end Sys2Proof
end

