-- ==== Sys2Proof/Laws/State.lean ====
section
/-! SUPPORT. One lemma per field per named update of the state: what the update leaves and what it writes. -/

namespace Sys2Proof.Machine

@[simp] theorem State.goto_cfg (s : State) (c : Ctl) : (s.goto c).cfg = s.cfg := rfl
@[simp] theorem State.goto_ctl (s : State) (c : Ctl) : (s.goto c).ctl = c := rfl
@[simp] theorem State.goto_bcnt (s : State) (c : Ctl) : (s.goto c).bcnt = s.bcnt := rfl
@[simp] theorem State.goto_woff (s : State) (c : Ctl) : (s.goto c).woff = s.woff := rfl
@[simp] theorem State.goto_taddr (s : State) (c : Ctl) : (s.goto c).taddr = s.taddr := rfl
@[simp] theorem State.goto_rxHi (s : State) (c : Ctl) : (s.goto c).rxHi = s.rxHi := rfl
@[simp] theorem State.goto_rxLo (s : State) (c : Ctl) : (s.goto c).rxLo = s.rxLo := rfl
@[simp] theorem State.goto_crcv (s : State) (c : Ctl) : (s.goto c).crcv = s.crcv := rfl
@[simp] theorem State.goto_flushK (s : State) (c : Ctl) : (s.goto c).flushK = s.flushK := rfl
@[simp] theorem State.goto_ppStep (s : State) (c : Ctl) : (s.goto c).ppStep = s.ppStep := rfl
@[simp] theorem State.goto_ppAddr (s : State) (c : Ctl) : (s.goto c).ppAddr = s.ppAddr := rfl
@[simp] theorem State.goto_ppSrc (s : State) (c : Ctl) : (s.goto c).ppSrc = s.ppSrc := rfl
@[simp] theorem State.goto_widx (s : State) (c : Ctl) : (s.goto c).widx = s.widx := rfl
@[simp] theorem State.goto_savedIe (s : State) (c : Ctl) : (s.goto c).savedIe = s.savedIe := rfl
@[simp] theorem State.goto_done (s : State) (c : Ctl) : (s.goto c).done = s.done := rfl
@[simp] theorem State.goto_ie (s : State) (c : Ctl) : (s.goto c).ie = s.ie := rfl
@[simp] theorem State.goto_buf (s : State) (c : Ctl) : (s.goto c).buf = s.buf := rfl
@[simp] theorem State.goto_pwb (s : State) (c : Ctl) : (s.goto c).pwb = s.pwb := rfl
@[simp] theorem State.goto_nvm (s : State) (c : Ctl) : (s.goto c).nvm = s.nvm := rfl
@[simp] theorem State.goto_nvmDraw (s : State) (c : Ctl) : (s.goto c).nvmDraw = s.nvmDraw := rfl
@[simp] theorem State.goto_rxq (s : State) (c : Ctl) : (s.goto c).rxq = s.rxq := rfl
@[simp] theorem State.goto_txq (s : State) (c : Ctl) : (s.goto c).txq = s.txq := rfl
@[simp] theorem State.goto_nvmPend (s : State) (c : Ctl) : (s.goto c).nvmPend = s.nvmPend := rfl
@[simp] theorem State.goto_rwwEn (s : State) (c : Ctl) : (s.goto c).rwwEn = s.rwwEn := rfl
@[simp] theorem State.goto_irqPending (s : State) (c : Ctl) : (s.goto c).irqPending = s.irqPending := rfl
@[simp] theorem State.goto_script (s : State) (c : Ctl) : (s.goto c).script = s.script := rfl
@[simp] theorem State.goto_fresh (s : State) (c : Ctl) : (s.goto c).fresh = s.fresh := rfl
@[simp] theorem State.goto_bufDraw (s : State) (c : Ctl) : (s.goto c).bufDraw = s.bufDraw := rfl
@[simp] theorem State.goto_pwbDraw (s : State) (c : Ctl) : (s.goto c).pwbDraw = s.pwbDraw := rfl

@[simp] theorem State.ppGoto_cfg (s : State) (p : PpStep) : (s.ppGoto p).cfg = s.cfg := rfl
@[simp] theorem State.ppGoto_ctl (s : State) (p : PpStep) : (s.ppGoto p).ctl = s.ctl := rfl
@[simp] theorem State.ppGoto_bcnt (s : State) (p : PpStep) : (s.ppGoto p).bcnt = s.bcnt := rfl
@[simp] theorem State.ppGoto_woff (s : State) (p : PpStep) : (s.ppGoto p).woff = s.woff := rfl
@[simp] theorem State.ppGoto_taddr (s : State) (p : PpStep) : (s.ppGoto p).taddr = s.taddr := rfl
@[simp] theorem State.ppGoto_rxHi (s : State) (p : PpStep) : (s.ppGoto p).rxHi = s.rxHi := rfl
@[simp] theorem State.ppGoto_rxLo (s : State) (p : PpStep) : (s.ppGoto p).rxLo = s.rxLo := rfl
@[simp] theorem State.ppGoto_crcv (s : State) (p : PpStep) : (s.ppGoto p).crcv = s.crcv := rfl
@[simp] theorem State.ppGoto_flushK (s : State) (p : PpStep) : (s.ppGoto p).flushK = s.flushK := rfl
@[simp] theorem State.ppGoto_ppStep (s : State) (p : PpStep) : (s.ppGoto p).ppStep = p := rfl
@[simp] theorem State.ppGoto_ppAddr (s : State) (p : PpStep) : (s.ppGoto p).ppAddr = s.ppAddr := rfl
@[simp] theorem State.ppGoto_ppSrc (s : State) (p : PpStep) : (s.ppGoto p).ppSrc = s.ppSrc := rfl
@[simp] theorem State.ppGoto_widx (s : State) (p : PpStep) : (s.ppGoto p).widx = s.widx := rfl
@[simp] theorem State.ppGoto_savedIe (s : State) (p : PpStep) : (s.ppGoto p).savedIe = s.savedIe := rfl
@[simp] theorem State.ppGoto_done (s : State) (p : PpStep) : (s.ppGoto p).done = s.done := rfl
@[simp] theorem State.ppGoto_ie (s : State) (p : PpStep) : (s.ppGoto p).ie = s.ie := rfl
@[simp] theorem State.ppGoto_buf (s : State) (p : PpStep) : (s.ppGoto p).buf = s.buf := rfl
@[simp] theorem State.ppGoto_pwb (s : State) (p : PpStep) : (s.ppGoto p).pwb = s.pwb := rfl
@[simp] theorem State.ppGoto_nvm (s : State) (p : PpStep) : (s.ppGoto p).nvm = s.nvm := rfl
@[simp] theorem State.ppGoto_nvmDraw (s : State) (p : PpStep) : (s.ppGoto p).nvmDraw = s.nvmDraw := rfl
@[simp] theorem State.ppGoto_rxq (s : State) (p : PpStep) : (s.ppGoto p).rxq = s.rxq := rfl
@[simp] theorem State.ppGoto_txq (s : State) (p : PpStep) : (s.ppGoto p).txq = s.txq := rfl
@[simp] theorem State.ppGoto_nvmPend (s : State) (p : PpStep) : (s.ppGoto p).nvmPend = s.nvmPend := rfl
@[simp] theorem State.ppGoto_rwwEn (s : State) (p : PpStep) : (s.ppGoto p).rwwEn = s.rwwEn := rfl
@[simp] theorem State.ppGoto_irqPending (s : State) (p : PpStep) : (s.ppGoto p).irqPending = s.irqPending := rfl
@[simp] theorem State.ppGoto_script (s : State) (p : PpStep) : (s.ppGoto p).script = s.script := rfl
@[simp] theorem State.ppGoto_fresh (s : State) (p : PpStep) : (s.ppGoto p).fresh = s.fresh := rfl
@[simp] theorem State.ppGoto_bufDraw (s : State) (p : PpStep) : (s.ppGoto p).bufDraw = s.bufDraw := rfl
@[simp] theorem State.ppGoto_pwbDraw (s : State) (p : PpStep) : (s.ppGoto p).pwbDraw = s.pwbDraw := rfl

@[simp] theorem State.txByte_cfg (s : State) (b : Byte) : (s.txByte b).cfg = s.cfg := rfl
@[simp] theorem State.txByte_ctl (s : State) (b : Byte) : (s.txByte b).ctl = s.ctl := rfl
@[simp] theorem State.txByte_bcnt (s : State) (b : Byte) : (s.txByte b).bcnt = s.bcnt := rfl
@[simp] theorem State.txByte_woff (s : State) (b : Byte) : (s.txByte b).woff = s.woff := rfl
@[simp] theorem State.txByte_taddr (s : State) (b : Byte) : (s.txByte b).taddr = s.taddr := rfl
@[simp] theorem State.txByte_rxHi (s : State) (b : Byte) : (s.txByte b).rxHi = s.rxHi := rfl
@[simp] theorem State.txByte_rxLo (s : State) (b : Byte) : (s.txByte b).rxLo = s.rxLo := rfl
@[simp] theorem State.txByte_crcv (s : State) (b : Byte) : (s.txByte b).crcv = s.crcv := rfl
@[simp] theorem State.txByte_flushK (s : State) (b : Byte) : (s.txByte b).flushK = s.flushK := rfl
@[simp] theorem State.txByte_ppStep (s : State) (b : Byte) : (s.txByte b).ppStep = s.ppStep := rfl
@[simp] theorem State.txByte_ppAddr (s : State) (b : Byte) : (s.txByte b).ppAddr = s.ppAddr := rfl
@[simp] theorem State.txByte_ppSrc (s : State) (b : Byte) : (s.txByte b).ppSrc = s.ppSrc := rfl
@[simp] theorem State.txByte_widx (s : State) (b : Byte) : (s.txByte b).widx = s.widx := rfl
@[simp] theorem State.txByte_savedIe (s : State) (b : Byte) : (s.txByte b).savedIe = s.savedIe := rfl
@[simp] theorem State.txByte_done (s : State) (b : Byte) : (s.txByte b).done = s.done := rfl
@[simp] theorem State.txByte_ie (s : State) (b : Byte) : (s.txByte b).ie = s.ie := rfl
@[simp] theorem State.txByte_buf (s : State) (b : Byte) : (s.txByte b).buf = s.buf := rfl
@[simp] theorem State.txByte_pwb (s : State) (b : Byte) : (s.txByte b).pwb = s.pwb := rfl
@[simp] theorem State.txByte_nvm (s : State) (b : Byte) : (s.txByte b).nvm = s.nvm := rfl
@[simp] theorem State.txByte_nvmDraw (s : State) (b : Byte) : (s.txByte b).nvmDraw = s.nvmDraw := rfl
@[simp] theorem State.txByte_rxq (s : State) (b : Byte) : (s.txByte b).rxq = s.rxq := rfl
@[simp] theorem State.txByte_txq (s : State) (b : Byte) : (s.txByte b).txq = s.txq ++ [b] := rfl
@[simp] theorem State.txByte_nvmPend (s : State) (b : Byte) : (s.txByte b).nvmPend = s.nvmPend := rfl
@[simp] theorem State.txByte_rwwEn (s : State) (b : Byte) : (s.txByte b).rwwEn = s.rwwEn := rfl
@[simp] theorem State.txByte_irqPending (s : State) (b : Byte) : (s.txByte b).irqPending = s.irqPending := rfl
@[simp] theorem State.txByte_script (s : State) (b : Byte) : (s.txByte b).script = s.script := rfl
@[simp] theorem State.txByte_fresh (s : State) (b : Byte) : (s.txByte b).fresh = s.fresh := rfl
@[simp] theorem State.txByte_bufDraw (s : State) (b : Byte) : (s.txByte b).bufDraw = s.bufDraw := rfl
@[simp] theorem State.txByte_pwbDraw (s : State) (b : Byte) : (s.txByte b).pwbDraw = s.pwbDraw := rfl

@[simp] theorem State.dropRx_cfg (s : State) (n : Nat) : (s.dropRx n).cfg = s.cfg := rfl
@[simp] theorem State.dropRx_ctl (s : State) (n : Nat) : (s.dropRx n).ctl = s.ctl := rfl
@[simp] theorem State.dropRx_bcnt (s : State) (n : Nat) : (s.dropRx n).bcnt = s.bcnt := rfl
@[simp] theorem State.dropRx_woff (s : State) (n : Nat) : (s.dropRx n).woff = s.woff := rfl
@[simp] theorem State.dropRx_taddr (s : State) (n : Nat) : (s.dropRx n).taddr = s.taddr := rfl
@[simp] theorem State.dropRx_rxHi (s : State) (n : Nat) : (s.dropRx n).rxHi = s.rxHi := rfl
@[simp] theorem State.dropRx_rxLo (s : State) (n : Nat) : (s.dropRx n).rxLo = s.rxLo := rfl
@[simp] theorem State.dropRx_crcv (s : State) (n : Nat) : (s.dropRx n).crcv = s.crcv := rfl
@[simp] theorem State.dropRx_flushK (s : State) (n : Nat) : (s.dropRx n).flushK = s.flushK := rfl
@[simp] theorem State.dropRx_ppStep (s : State) (n : Nat) : (s.dropRx n).ppStep = s.ppStep := rfl
@[simp] theorem State.dropRx_ppAddr (s : State) (n : Nat) : (s.dropRx n).ppAddr = s.ppAddr := rfl
@[simp] theorem State.dropRx_ppSrc (s : State) (n : Nat) : (s.dropRx n).ppSrc = s.ppSrc := rfl
@[simp] theorem State.dropRx_widx (s : State) (n : Nat) : (s.dropRx n).widx = s.widx := rfl
@[simp] theorem State.dropRx_savedIe (s : State) (n : Nat) : (s.dropRx n).savedIe = s.savedIe := rfl
@[simp] theorem State.dropRx_done (s : State) (n : Nat) : (s.dropRx n).done = s.done := rfl
@[simp] theorem State.dropRx_ie (s : State) (n : Nat) : (s.dropRx n).ie = s.ie := rfl
@[simp] theorem State.dropRx_buf (s : State) (n : Nat) : (s.dropRx n).buf = s.buf := rfl
@[simp] theorem State.dropRx_pwb (s : State) (n : Nat) : (s.dropRx n).pwb = s.pwb := rfl
@[simp] theorem State.dropRx_nvm (s : State) (n : Nat) : (s.dropRx n).nvm = s.nvm := rfl
@[simp] theorem State.dropRx_nvmDraw (s : State) (n : Nat) : (s.dropRx n).nvmDraw = s.nvmDraw := rfl
@[simp] theorem State.dropRx_rxq (s : State) (n : Nat) : (s.dropRx n).rxq = s.rxq.drop n := rfl
@[simp] theorem State.dropRx_txq (s : State) (n : Nat) : (s.dropRx n).txq = s.txq := rfl
@[simp] theorem State.dropRx_nvmPend (s : State) (n : Nat) : (s.dropRx n).nvmPend = s.nvmPend := rfl
@[simp] theorem State.dropRx_rwwEn (s : State) (n : Nat) : (s.dropRx n).rwwEn = s.rwwEn := rfl
@[simp] theorem State.dropRx_irqPending (s : State) (n : Nat) : (s.dropRx n).irqPending = s.irqPending := rfl
@[simp] theorem State.dropRx_script (s : State) (n : Nat) : (s.dropRx n).script = s.script := rfl
@[simp] theorem State.dropRx_fresh (s : State) (n : Nat) : (s.dropRx n).fresh = s.fresh := rfl
@[simp] theorem State.dropRx_bufDraw (s : State) (n : Nat) : (s.dropRx n).bufDraw = s.bufDraw := rfl
@[simp] theorem State.dropRx_pwbDraw (s : State) (n : Nat) : (s.dropRx n).pwbDraw = s.pwbDraw := rfl

@[simp] theorem State.sndSend_cfg (s : State) (b : Byte) : (s.sndSend b).cfg = s.cfg := rfl
@[simp] theorem State.sndSend_ctl (s : State) (b : Byte) : (s.sndSend b).ctl = s.ctl := rfl
@[simp] theorem State.sndSend_bcnt (s : State) (b : Byte) : (s.sndSend b).bcnt = s.bcnt := rfl
@[simp] theorem State.sndSend_woff (s : State) (b : Byte) : (s.sndSend b).woff = s.woff := rfl
@[simp] theorem State.sndSend_taddr (s : State) (b : Byte) : (s.sndSend b).taddr = s.taddr := rfl
@[simp] theorem State.sndSend_rxHi (s : State) (b : Byte) : (s.sndSend b).rxHi = s.rxHi := rfl
@[simp] theorem State.sndSend_rxLo (s : State) (b : Byte) : (s.sndSend b).rxLo = s.rxLo := rfl
@[simp] theorem State.sndSend_crcv (s : State) (b : Byte) : (s.sndSend b).crcv = s.crcv := rfl
@[simp] theorem State.sndSend_flushK (s : State) (b : Byte) : (s.sndSend b).flushK = s.flushK := rfl
@[simp] theorem State.sndSend_ppStep (s : State) (b : Byte) : (s.sndSend b).ppStep = s.ppStep := rfl
@[simp] theorem State.sndSend_ppAddr (s : State) (b : Byte) : (s.sndSend b).ppAddr = s.ppAddr := rfl
@[simp] theorem State.sndSend_ppSrc (s : State) (b : Byte) : (s.sndSend b).ppSrc = s.ppSrc := rfl
@[simp] theorem State.sndSend_widx (s : State) (b : Byte) : (s.sndSend b).widx = s.widx := rfl
@[simp] theorem State.sndSend_savedIe (s : State) (b : Byte) : (s.sndSend b).savedIe = s.savedIe := rfl
@[simp] theorem State.sndSend_done (s : State) (b : Byte) : (s.sndSend b).done = s.done := rfl
@[simp] theorem State.sndSend_ie (s : State) (b : Byte) : (s.sndSend b).ie = s.ie := rfl
@[simp] theorem State.sndSend_buf (s : State) (b : Byte) : (s.sndSend b).buf = s.buf := rfl
@[simp] theorem State.sndSend_pwb (s : State) (b : Byte) : (s.sndSend b).pwb = s.pwb := rfl
@[simp] theorem State.sndSend_nvm (s : State) (b : Byte) : (s.sndSend b).nvm = s.nvm := rfl
@[simp] theorem State.sndSend_nvmDraw (s : State) (b : Byte) : (s.sndSend b).nvmDraw = s.nvmDraw := rfl
@[simp] theorem State.sndSend_rxq (s : State) (b : Byte) : (s.sndSend b).rxq = s.rxq ++ [b] := rfl
@[simp] theorem State.sndSend_txq (s : State) (b : Byte) : (s.sndSend b).txq = s.txq := rfl
@[simp] theorem State.sndSend_nvmPend (s : State) (b : Byte) : (s.sndSend b).nvmPend = s.nvmPend := rfl
@[simp] theorem State.sndSend_rwwEn (s : State) (b : Byte) : (s.sndSend b).rwwEn = s.rwwEn := rfl
@[simp] theorem State.sndSend_irqPending (s : State) (b : Byte) : (s.sndSend b).irqPending = s.irqPending := rfl
@[simp] theorem State.sndSend_script (s : State) (b : Byte) : (s.sndSend b).script = s.script := rfl
@[simp] theorem State.sndSend_fresh (s : State) (b : Byte) : (s.sndSend b).fresh = s.fresh := rfl
@[simp] theorem State.sndSend_bufDraw (s : State) (b : Byte) : (s.sndSend b).bufDraw = s.bufDraw := rfl
@[simp] theorem State.sndSend_pwbDraw (s : State) (b : Byte) : (s.sndSend b).pwbDraw = s.pwbDraw := rfl

@[simp] theorem State.sndTake_cfg (s : State) : (s.sndTake).cfg = s.cfg := rfl
@[simp] theorem State.sndTake_ctl (s : State) : (s.sndTake).ctl = s.ctl := rfl
@[simp] theorem State.sndTake_bcnt (s : State) : (s.sndTake).bcnt = s.bcnt := rfl
@[simp] theorem State.sndTake_woff (s : State) : (s.sndTake).woff = s.woff := rfl
@[simp] theorem State.sndTake_taddr (s : State) : (s.sndTake).taddr = s.taddr := rfl
@[simp] theorem State.sndTake_rxHi (s : State) : (s.sndTake).rxHi = s.rxHi := rfl
@[simp] theorem State.sndTake_rxLo (s : State) : (s.sndTake).rxLo = s.rxLo := rfl
@[simp] theorem State.sndTake_crcv (s : State) : (s.sndTake).crcv = s.crcv := rfl
@[simp] theorem State.sndTake_flushK (s : State) : (s.sndTake).flushK = s.flushK := rfl
@[simp] theorem State.sndTake_ppStep (s : State) : (s.sndTake).ppStep = s.ppStep := rfl
@[simp] theorem State.sndTake_ppAddr (s : State) : (s.sndTake).ppAddr = s.ppAddr := rfl
@[simp] theorem State.sndTake_ppSrc (s : State) : (s.sndTake).ppSrc = s.ppSrc := rfl
@[simp] theorem State.sndTake_widx (s : State) : (s.sndTake).widx = s.widx := rfl
@[simp] theorem State.sndTake_savedIe (s : State) : (s.sndTake).savedIe = s.savedIe := rfl
@[simp] theorem State.sndTake_done (s : State) : (s.sndTake).done = s.done := rfl
@[simp] theorem State.sndTake_ie (s : State) : (s.sndTake).ie = s.ie := rfl
@[simp] theorem State.sndTake_buf (s : State) : (s.sndTake).buf = s.buf := rfl
@[simp] theorem State.sndTake_pwb (s : State) : (s.sndTake).pwb = s.pwb := rfl
@[simp] theorem State.sndTake_nvm (s : State) : (s.sndTake).nvm = s.nvm := rfl
@[simp] theorem State.sndTake_nvmDraw (s : State) : (s.sndTake).nvmDraw = s.nvmDraw := rfl
@[simp] theorem State.sndTake_rxq (s : State) : (s.sndTake).rxq = s.rxq := rfl
@[simp] theorem State.sndTake_txq (s : State) : (s.sndTake).txq = s.txq.drop 1 := rfl
@[simp] theorem State.sndTake_nvmPend (s : State) : (s.sndTake).nvmPend = s.nvmPend := rfl
@[simp] theorem State.sndTake_rwwEn (s : State) : (s.sndTake).rwwEn = s.rwwEn := rfl
@[simp] theorem State.sndTake_irqPending (s : State) : (s.sndTake).irqPending = s.irqPending := rfl
@[simp] theorem State.sndTake_script (s : State) : (s.sndTake).script = s.script := rfl
@[simp] theorem State.sndTake_fresh (s : State) : (s.sndTake).fresh = s.fresh := rfl
@[simp] theorem State.sndTake_bufDraw (s : State) : (s.sndTake).bufDraw = s.bufDraw := rfl
@[simp] theorem State.sndTake_pwbDraw (s : State) : (s.sndTake).pwbDraw = s.pwbDraw := rfl

@[simp] theorem State.popScript_cfg (s : State) : (s.popScript).cfg = s.cfg := rfl
@[simp] theorem State.popScript_ctl (s : State) : (s.popScript).ctl = s.ctl := rfl
@[simp] theorem State.popScript_bcnt (s : State) : (s.popScript).bcnt = s.bcnt := rfl
@[simp] theorem State.popScript_woff (s : State) : (s.popScript).woff = s.woff := rfl
@[simp] theorem State.popScript_taddr (s : State) : (s.popScript).taddr = s.taddr := rfl
@[simp] theorem State.popScript_rxHi (s : State) : (s.popScript).rxHi = s.rxHi := rfl
@[simp] theorem State.popScript_rxLo (s : State) : (s.popScript).rxLo = s.rxLo := rfl
@[simp] theorem State.popScript_crcv (s : State) : (s.popScript).crcv = s.crcv := rfl
@[simp] theorem State.popScript_flushK (s : State) : (s.popScript).flushK = s.flushK := rfl
@[simp] theorem State.popScript_ppStep (s : State) : (s.popScript).ppStep = s.ppStep := rfl
@[simp] theorem State.popScript_ppAddr (s : State) : (s.popScript).ppAddr = s.ppAddr := rfl
@[simp] theorem State.popScript_ppSrc (s : State) : (s.popScript).ppSrc = s.ppSrc := rfl
@[simp] theorem State.popScript_widx (s : State) : (s.popScript).widx = s.widx := rfl
@[simp] theorem State.popScript_savedIe (s : State) : (s.popScript).savedIe = s.savedIe := rfl
@[simp] theorem State.popScript_done (s : State) : (s.popScript).done = s.done := rfl
@[simp] theorem State.popScript_ie (s : State) : (s.popScript).ie = s.ie := rfl
@[simp] theorem State.popScript_buf (s : State) : (s.popScript).buf = s.buf := rfl
@[simp] theorem State.popScript_pwb (s : State) : (s.popScript).pwb = s.pwb := rfl
@[simp] theorem State.popScript_nvm (s : State) : (s.popScript).nvm = s.nvm := rfl
@[simp] theorem State.popScript_nvmDraw (s : State) : (s.popScript).nvmDraw = s.nvmDraw := rfl
@[simp] theorem State.popScript_rxq (s : State) : (s.popScript).rxq = s.rxq := rfl
@[simp] theorem State.popScript_txq (s : State) : (s.popScript).txq = s.txq := rfl
@[simp] theorem State.popScript_nvmPend (s : State) : (s.popScript).nvmPend = s.nvmPend := rfl
@[simp] theorem State.popScript_rwwEn (s : State) : (s.popScript).rwwEn = s.rwwEn := rfl
@[simp] theorem State.popScript_irqPending (s : State) : (s.popScript).irqPending = s.irqPending := rfl
@[simp] theorem State.popScript_script (s : State) : (s.popScript).script = s.script.drop 1 := rfl
@[simp] theorem State.popScript_fresh (s : State) : (s.popScript).fresh = s.fresh := rfl
@[simp] theorem State.popScript_bufDraw (s : State) : (s.popScript).bufDraw = s.bufDraw := rfl
@[simp] theorem State.popScript_pwbDraw (s : State) : (s.popScript).pwbDraw = s.pwbDraw := rfl

@[simp] theorem State.ppInvoke_cfg (s : State) (a o : Nat) : (s.ppInvoke a o).cfg = s.cfg := rfl
@[simp] theorem State.ppInvoke_ctl (s : State) (a o : Nat) : (s.ppInvoke a o).ctl = s.ctl := rfl
@[simp] theorem State.ppInvoke_bcnt (s : State) (a o : Nat) : (s.ppInvoke a o).bcnt = s.bcnt := rfl
@[simp] theorem State.ppInvoke_woff (s : State) (a o : Nat) : (s.ppInvoke a o).woff = s.woff := rfl
@[simp] theorem State.ppInvoke_taddr (s : State) (a o : Nat) : (s.ppInvoke a o).taddr = s.taddr := rfl
@[simp] theorem State.ppInvoke_rxHi (s : State) (a o : Nat) : (s.ppInvoke a o).rxHi = s.rxHi := rfl
@[simp] theorem State.ppInvoke_rxLo (s : State) (a o : Nat) : (s.ppInvoke a o).rxLo = s.rxLo := rfl
@[simp] theorem State.ppInvoke_crcv (s : State) (a o : Nat) : (s.ppInvoke a o).crcv = s.crcv := rfl
@[simp] theorem State.ppInvoke_flushK (s : State) (a o : Nat) : (s.ppInvoke a o).flushK = s.flushK := rfl
@[simp] theorem State.ppInvoke_ppStep (s : State) (a o : Nat) : (s.ppInvoke a o).ppStep = .s1 := rfl
@[simp] theorem State.ppInvoke_ppAddr (s : State) (a o : Nat) : (s.ppInvoke a o).ppAddr = a := rfl
@[simp] theorem State.ppInvoke_ppSrc (s : State) (a o : Nat) : (s.ppInvoke a o).ppSrc = o := rfl
@[simp] theorem State.ppInvoke_widx (s : State) (a o : Nat) : (s.ppInvoke a o).widx = s.widx := rfl
@[simp] theorem State.ppInvoke_savedIe (s : State) (a o : Nat) : (s.ppInvoke a o).savedIe = s.savedIe := rfl
@[simp] theorem State.ppInvoke_done (s : State) (a o : Nat) : (s.ppInvoke a o).done = s.done := rfl
@[simp] theorem State.ppInvoke_ie (s : State) (a o : Nat) : (s.ppInvoke a o).ie = s.ie := rfl
@[simp] theorem State.ppInvoke_buf (s : State) (a o : Nat) : (s.ppInvoke a o).buf = s.buf := rfl
@[simp] theorem State.ppInvoke_pwb (s : State) (a o : Nat) : (s.ppInvoke a o).pwb = s.pwb := rfl
@[simp] theorem State.ppInvoke_nvm (s : State) (a o : Nat) : (s.ppInvoke a o).nvm = s.nvm := rfl
@[simp] theorem State.ppInvoke_nvmDraw (s : State) (a o : Nat) : (s.ppInvoke a o).nvmDraw = s.nvmDraw := rfl
@[simp] theorem State.ppInvoke_rxq (s : State) (a o : Nat) : (s.ppInvoke a o).rxq = s.rxq := rfl
@[simp] theorem State.ppInvoke_txq (s : State) (a o : Nat) : (s.ppInvoke a o).txq = s.txq := rfl
@[simp] theorem State.ppInvoke_nvmPend (s : State) (a o : Nat) : (s.ppInvoke a o).nvmPend = s.nvmPend := rfl
@[simp] theorem State.ppInvoke_rwwEn (s : State) (a o : Nat) : (s.ppInvoke a o).rwwEn = s.rwwEn := rfl
@[simp] theorem State.ppInvoke_irqPending (s : State) (a o : Nat) : (s.ppInvoke a o).irqPending = s.irqPending := rfl
@[simp] theorem State.ppInvoke_script (s : State) (a o : Nat) : (s.ppInvoke a o).script = s.script := rfl
@[simp] theorem State.ppInvoke_fresh (s : State) (a o : Nat) : (s.ppInvoke a o).fresh = s.fresh := rfl
@[simp] theorem State.ppInvoke_bufDraw (s : State) (a o : Nat) : (s.ppInvoke a o).bufDraw = s.bufDraw := rfl
@[simp] theorem State.ppInvoke_pwbDraw (s : State) (a o : Nat) : (s.ppInvoke a o).pwbDraw = s.pwbDraw := rfl

@[simp] theorem State.suspendInterrupts_cfg (s : State) : (s.suspendInterrupts).cfg = s.cfg := rfl
@[simp] theorem State.suspendInterrupts_ctl (s : State) : (s.suspendInterrupts).ctl = s.ctl := rfl
@[simp] theorem State.suspendInterrupts_bcnt (s : State) : (s.suspendInterrupts).bcnt = s.bcnt := rfl
@[simp] theorem State.suspendInterrupts_woff (s : State) : (s.suspendInterrupts).woff = s.woff := rfl
@[simp] theorem State.suspendInterrupts_taddr (s : State) : (s.suspendInterrupts).taddr = s.taddr := rfl
@[simp] theorem State.suspendInterrupts_rxHi (s : State) : (s.suspendInterrupts).rxHi = s.rxHi := rfl
@[simp] theorem State.suspendInterrupts_rxLo (s : State) : (s.suspendInterrupts).rxLo = s.rxLo := rfl
@[simp] theorem State.suspendInterrupts_crcv (s : State) : (s.suspendInterrupts).crcv = s.crcv := rfl
@[simp] theorem State.suspendInterrupts_flushK (s : State) : (s.suspendInterrupts).flushK = s.flushK := rfl
@[simp] theorem State.suspendInterrupts_ppStep (s : State) : (s.suspendInterrupts).ppStep = s.ppStep := rfl
@[simp] theorem State.suspendInterrupts_ppAddr (s : State) : (s.suspendInterrupts).ppAddr = s.ppAddr := rfl
@[simp] theorem State.suspendInterrupts_ppSrc (s : State) : (s.suspendInterrupts).ppSrc = s.ppSrc := rfl
@[simp] theorem State.suspendInterrupts_widx (s : State) : (s.suspendInterrupts).widx = s.widx := rfl
@[simp] theorem State.suspendInterrupts_savedIe (s : State) : (s.suspendInterrupts).savedIe = s.ie := rfl
@[simp] theorem State.suspendInterrupts_done (s : State) : (s.suspendInterrupts).done = s.done := rfl
@[simp] theorem State.suspendInterrupts_ie (s : State) : (s.suspendInterrupts).ie = false := rfl
@[simp] theorem State.suspendInterrupts_buf (s : State) : (s.suspendInterrupts).buf = s.buf := rfl
@[simp] theorem State.suspendInterrupts_pwb (s : State) : (s.suspendInterrupts).pwb = s.pwb := rfl
@[simp] theorem State.suspendInterrupts_nvm (s : State) : (s.suspendInterrupts).nvm = s.nvm := rfl
@[simp] theorem State.suspendInterrupts_nvmDraw (s : State) : (s.suspendInterrupts).nvmDraw = s.nvmDraw := rfl
@[simp] theorem State.suspendInterrupts_rxq (s : State) : (s.suspendInterrupts).rxq = s.rxq := rfl
@[simp] theorem State.suspendInterrupts_txq (s : State) : (s.suspendInterrupts).txq = s.txq := rfl
@[simp] theorem State.suspendInterrupts_nvmPend (s : State) : (s.suspendInterrupts).nvmPend = s.nvmPend := rfl
@[simp] theorem State.suspendInterrupts_rwwEn (s : State) : (s.suspendInterrupts).rwwEn = s.rwwEn := rfl
@[simp] theorem State.suspendInterrupts_irqPending (s : State) : (s.suspendInterrupts).irqPending = s.irqPending := rfl
@[simp] theorem State.suspendInterrupts_script (s : State) : (s.suspendInterrupts).script = s.script := rfl
@[simp] theorem State.suspendInterrupts_fresh (s : State) : (s.suspendInterrupts).fresh = s.fresh := rfl
@[simp] theorem State.suspendInterrupts_bufDraw (s : State) : (s.suspendInterrupts).bufDraw = s.bufDraw := rfl
@[simp] theorem State.suspendInterrupts_pwbDraw (s : State) : (s.suspendInterrupts).pwbDraw = s.pwbDraw := rfl

@[simp] theorem State.restoreInterrupts_cfg (s : State) : (s.restoreInterrupts).cfg = s.cfg := rfl
@[simp] theorem State.restoreInterrupts_ctl (s : State) : (s.restoreInterrupts).ctl = s.ctl := rfl
@[simp] theorem State.restoreInterrupts_bcnt (s : State) : (s.restoreInterrupts).bcnt = s.bcnt := rfl
@[simp] theorem State.restoreInterrupts_woff (s : State) : (s.restoreInterrupts).woff = s.woff := rfl
@[simp] theorem State.restoreInterrupts_taddr (s : State) : (s.restoreInterrupts).taddr = s.taddr := rfl
@[simp] theorem State.restoreInterrupts_rxHi (s : State) : (s.restoreInterrupts).rxHi = s.rxHi := rfl
@[simp] theorem State.restoreInterrupts_rxLo (s : State) : (s.restoreInterrupts).rxLo = s.rxLo := rfl
@[simp] theorem State.restoreInterrupts_crcv (s : State) : (s.restoreInterrupts).crcv = s.crcv := rfl
@[simp] theorem State.restoreInterrupts_flushK (s : State) : (s.restoreInterrupts).flushK = s.flushK := rfl
@[simp] theorem State.restoreInterrupts_ppStep (s : State) : (s.restoreInterrupts).ppStep = s.ppStep := rfl
@[simp] theorem State.restoreInterrupts_ppAddr (s : State) : (s.restoreInterrupts).ppAddr = s.ppAddr := rfl
@[simp] theorem State.restoreInterrupts_ppSrc (s : State) : (s.restoreInterrupts).ppSrc = s.ppSrc := rfl
@[simp] theorem State.restoreInterrupts_widx (s : State) : (s.restoreInterrupts).widx = s.widx := rfl
@[simp] theorem State.restoreInterrupts_savedIe (s : State) : (s.restoreInterrupts).savedIe = s.savedIe := rfl
@[simp] theorem State.restoreInterrupts_done (s : State) : (s.restoreInterrupts).done = s.done := rfl
@[simp] theorem State.restoreInterrupts_ie (s : State) : (s.restoreInterrupts).ie = s.savedIe := rfl
@[simp] theorem State.restoreInterrupts_buf (s : State) : (s.restoreInterrupts).buf = s.buf := rfl
@[simp] theorem State.restoreInterrupts_pwb (s : State) : (s.restoreInterrupts).pwb = s.pwb := rfl
@[simp] theorem State.restoreInterrupts_nvm (s : State) : (s.restoreInterrupts).nvm = s.nvm := rfl
@[simp] theorem State.restoreInterrupts_nvmDraw (s : State) : (s.restoreInterrupts).nvmDraw = s.nvmDraw := rfl
@[simp] theorem State.restoreInterrupts_rxq (s : State) : (s.restoreInterrupts).rxq = s.rxq := rfl
@[simp] theorem State.restoreInterrupts_txq (s : State) : (s.restoreInterrupts).txq = s.txq := rfl
@[simp] theorem State.restoreInterrupts_nvmPend (s : State) : (s.restoreInterrupts).nvmPend = s.nvmPend := rfl
@[simp] theorem State.restoreInterrupts_rwwEn (s : State) : (s.restoreInterrupts).rwwEn = s.rwwEn := rfl
@[simp] theorem State.restoreInterrupts_irqPending (s : State) : (s.restoreInterrupts).irqPending = s.irqPending := rfl
@[simp] theorem State.restoreInterrupts_script (s : State) : (s.restoreInterrupts).script = s.script := rfl
@[simp] theorem State.restoreInterrupts_fresh (s : State) : (s.restoreInterrupts).fresh = s.fresh := rfl
@[simp] theorem State.restoreInterrupts_bufDraw (s : State) : (s.restoreInterrupts).bufDraw = s.bufDraw := rfl
@[simp] theorem State.restoreInterrupts_pwbDraw (s : State) : (s.restoreInterrupts).pwbDraw = s.pwbDraw := rfl

@[simp] theorem State.closeReads_cfg (s : State) : (s.closeReads).cfg = s.cfg := rfl
@[simp] theorem State.closeReads_ctl (s : State) : (s.closeReads).ctl = s.ctl := rfl
@[simp] theorem State.closeReads_bcnt (s : State) : (s.closeReads).bcnt = s.bcnt := rfl
@[simp] theorem State.closeReads_woff (s : State) : (s.closeReads).woff = s.woff := rfl
@[simp] theorem State.closeReads_taddr (s : State) : (s.closeReads).taddr = s.taddr := rfl
@[simp] theorem State.closeReads_rxHi (s : State) : (s.closeReads).rxHi = s.rxHi := rfl
@[simp] theorem State.closeReads_rxLo (s : State) : (s.closeReads).rxLo = s.rxLo := rfl
@[simp] theorem State.closeReads_crcv (s : State) : (s.closeReads).crcv = s.crcv := rfl
@[simp] theorem State.closeReads_flushK (s : State) : (s.closeReads).flushK = s.flushK := rfl
@[simp] theorem State.closeReads_ppStep (s : State) : (s.closeReads).ppStep = s.ppStep := rfl
@[simp] theorem State.closeReads_ppAddr (s : State) : (s.closeReads).ppAddr = s.ppAddr := rfl
@[simp] theorem State.closeReads_ppSrc (s : State) : (s.closeReads).ppSrc = s.ppSrc := rfl
@[simp] theorem State.closeReads_widx (s : State) : (s.closeReads).widx = s.widx := rfl
@[simp] theorem State.closeReads_savedIe (s : State) : (s.closeReads).savedIe = s.savedIe := rfl
@[simp] theorem State.closeReads_done (s : State) : (s.closeReads).done = s.done := rfl
@[simp] theorem State.closeReads_ie (s : State) : (s.closeReads).ie = s.ie := rfl
@[simp] theorem State.closeReads_buf (s : State) : (s.closeReads).buf = s.buf := rfl
@[simp] theorem State.closeReads_pwb (s : State) : (s.closeReads).pwb = s.pwb := rfl
@[simp] theorem State.closeReads_nvm (s : State) : (s.closeReads).nvm = s.nvm := rfl
@[simp] theorem State.closeReads_nvmDraw (s : State) : (s.closeReads).nvmDraw = s.nvmDraw := rfl
@[simp] theorem State.closeReads_rxq (s : State) : (s.closeReads).rxq = s.rxq := rfl
@[simp] theorem State.closeReads_txq (s : State) : (s.closeReads).txq = s.txq := rfl
@[simp] theorem State.closeReads_nvmPend (s : State) : (s.closeReads).nvmPend = s.nvmPend := rfl
@[simp] theorem State.closeReads_rwwEn (s : State) : (s.closeReads).rwwEn = false := rfl
@[simp] theorem State.closeReads_irqPending (s : State) : (s.closeReads).irqPending = s.irqPending := rfl
@[simp] theorem State.closeReads_script (s : State) : (s.closeReads).script = s.script := rfl
@[simp] theorem State.closeReads_fresh (s : State) : (s.closeReads).fresh = s.fresh := rfl
@[simp] theorem State.closeReads_bufDraw (s : State) : (s.closeReads).bufDraw = s.bufDraw := rfl
@[simp] theorem State.closeReads_pwbDraw (s : State) : (s.closeReads).pwbDraw = s.pwbDraw := rfl

@[simp] theorem State.openReads_cfg (s : State) : (s.openReads).cfg = s.cfg := rfl
@[simp] theorem State.openReads_ctl (s : State) : (s.openReads).ctl = s.ctl := rfl
@[simp] theorem State.openReads_bcnt (s : State) : (s.openReads).bcnt = s.bcnt := rfl
@[simp] theorem State.openReads_woff (s : State) : (s.openReads).woff = s.woff := rfl
@[simp] theorem State.openReads_taddr (s : State) : (s.openReads).taddr = s.taddr := rfl
@[simp] theorem State.openReads_rxHi (s : State) : (s.openReads).rxHi = s.rxHi := rfl
@[simp] theorem State.openReads_rxLo (s : State) : (s.openReads).rxLo = s.rxLo := rfl
@[simp] theorem State.openReads_crcv (s : State) : (s.openReads).crcv = s.crcv := rfl
@[simp] theorem State.openReads_flushK (s : State) : (s.openReads).flushK = s.flushK := rfl
@[simp] theorem State.openReads_ppStep (s : State) : (s.openReads).ppStep = s.ppStep := rfl
@[simp] theorem State.openReads_ppAddr (s : State) : (s.openReads).ppAddr = s.ppAddr := rfl
@[simp] theorem State.openReads_ppSrc (s : State) : (s.openReads).ppSrc = s.ppSrc := rfl
@[simp] theorem State.openReads_widx (s : State) : (s.openReads).widx = s.widx := rfl
@[simp] theorem State.openReads_savedIe (s : State) : (s.openReads).savedIe = s.savedIe := rfl
@[simp] theorem State.openReads_done (s : State) : (s.openReads).done = s.done := rfl
@[simp] theorem State.openReads_ie (s : State) : (s.openReads).ie = s.ie := rfl
@[simp] theorem State.openReads_buf (s : State) : (s.openReads).buf = s.buf := rfl
@[simp] theorem State.openReads_pwb (s : State) : (s.openReads).pwb = s.pwb := rfl
@[simp] theorem State.openReads_nvm (s : State) : (s.openReads).nvm = s.nvm := rfl
@[simp] theorem State.openReads_nvmDraw (s : State) : (s.openReads).nvmDraw = s.nvmDraw := rfl
@[simp] theorem State.openReads_rxq (s : State) : (s.openReads).rxq = s.rxq := rfl
@[simp] theorem State.openReads_txq (s : State) : (s.openReads).txq = s.txq := rfl
@[simp] theorem State.openReads_nvmPend (s : State) : (s.openReads).nvmPend = s.nvmPend := rfl
@[simp] theorem State.openReads_rwwEn (s : State) : (s.openReads).rwwEn = true := rfl
@[simp] theorem State.openReads_irqPending (s : State) : (s.openReads).irqPending = s.irqPending := rfl
@[simp] theorem State.openReads_script (s : State) : (s.openReads).script = s.script := rfl
@[simp] theorem State.openReads_fresh (s : State) : (s.openReads).fresh = s.fresh := rfl
@[simp] theorem State.openReads_bufDraw (s : State) : (s.openReads).bufDraw = s.bufDraw := rfl
@[simp] theorem State.openReads_pwbDraw (s : State) : (s.openReads).pwbDraw = s.pwbDraw := rfl

@[simp] theorem State.setDone_cfg (s : State) : (s.setDone).cfg = s.cfg := rfl
@[simp] theorem State.setDone_ctl (s : State) : (s.setDone).ctl = s.ctl := rfl
@[simp] theorem State.setDone_bcnt (s : State) : (s.setDone).bcnt = s.bcnt := rfl
@[simp] theorem State.setDone_woff (s : State) : (s.setDone).woff = s.woff := rfl
@[simp] theorem State.setDone_taddr (s : State) : (s.setDone).taddr = s.taddr := rfl
@[simp] theorem State.setDone_rxHi (s : State) : (s.setDone).rxHi = s.rxHi := rfl
@[simp] theorem State.setDone_rxLo (s : State) : (s.setDone).rxLo = s.rxLo := rfl
@[simp] theorem State.setDone_crcv (s : State) : (s.setDone).crcv = s.crcv := rfl
@[simp] theorem State.setDone_flushK (s : State) : (s.setDone).flushK = s.flushK := rfl
@[simp] theorem State.setDone_ppStep (s : State) : (s.setDone).ppStep = s.ppStep := rfl
@[simp] theorem State.setDone_ppAddr (s : State) : (s.setDone).ppAddr = s.ppAddr := rfl
@[simp] theorem State.setDone_ppSrc (s : State) : (s.setDone).ppSrc = s.ppSrc := rfl
@[simp] theorem State.setDone_widx (s : State) : (s.setDone).widx = s.widx := rfl
@[simp] theorem State.setDone_savedIe (s : State) : (s.setDone).savedIe = s.savedIe := rfl
@[simp] theorem State.setDone_done (s : State) : (s.setDone).done = true := rfl
@[simp] theorem State.setDone_ie (s : State) : (s.setDone).ie = s.ie := rfl
@[simp] theorem State.setDone_buf (s : State) : (s.setDone).buf = s.buf := rfl
@[simp] theorem State.setDone_pwb (s : State) : (s.setDone).pwb = s.pwb := rfl
@[simp] theorem State.setDone_nvm (s : State) : (s.setDone).nvm = s.nvm := rfl
@[simp] theorem State.setDone_nvmDraw (s : State) : (s.setDone).nvmDraw = s.nvmDraw := rfl
@[simp] theorem State.setDone_rxq (s : State) : (s.setDone).rxq = s.rxq := rfl
@[simp] theorem State.setDone_txq (s : State) : (s.setDone).txq = s.txq := rfl
@[simp] theorem State.setDone_nvmPend (s : State) : (s.setDone).nvmPend = s.nvmPend := rfl
@[simp] theorem State.setDone_rwwEn (s : State) : (s.setDone).rwwEn = s.rwwEn := rfl
@[simp] theorem State.setDone_irqPending (s : State) : (s.setDone).irqPending = s.irqPending := rfl
@[simp] theorem State.setDone_script (s : State) : (s.setDone).script = s.script := rfl
@[simp] theorem State.setDone_fresh (s : State) : (s.setDone).fresh = s.fresh := rfl
@[simp] theorem State.setDone_bufDraw (s : State) : (s.setDone).bufDraw = s.bufDraw := rfl
@[simp] theorem State.setDone_pwbDraw (s : State) : (s.setDone).pwbDraw = s.pwbDraw := rfl

@[simp] theorem State.irqArrives_cfg (s : State) : (s.irqArrives).cfg = s.cfg := rfl
@[simp] theorem State.irqArrives_ctl (s : State) : (s.irqArrives).ctl = s.ctl := rfl
@[simp] theorem State.irqArrives_bcnt (s : State) : (s.irqArrives).bcnt = s.bcnt := rfl
@[simp] theorem State.irqArrives_woff (s : State) : (s.irqArrives).woff = s.woff := rfl
@[simp] theorem State.irqArrives_taddr (s : State) : (s.irqArrives).taddr = s.taddr := rfl
@[simp] theorem State.irqArrives_rxHi (s : State) : (s.irqArrives).rxHi = s.rxHi := rfl
@[simp] theorem State.irqArrives_rxLo (s : State) : (s.irqArrives).rxLo = s.rxLo := rfl
@[simp] theorem State.irqArrives_crcv (s : State) : (s.irqArrives).crcv = s.crcv := rfl
@[simp] theorem State.irqArrives_flushK (s : State) : (s.irqArrives).flushK = s.flushK := rfl
@[simp] theorem State.irqArrives_ppStep (s : State) : (s.irqArrives).ppStep = s.ppStep := rfl
@[simp] theorem State.irqArrives_ppAddr (s : State) : (s.irqArrives).ppAddr = s.ppAddr := rfl
@[simp] theorem State.irqArrives_ppSrc (s : State) : (s.irqArrives).ppSrc = s.ppSrc := rfl
@[simp] theorem State.irqArrives_widx (s : State) : (s.irqArrives).widx = s.widx := rfl
@[simp] theorem State.irqArrives_savedIe (s : State) : (s.irqArrives).savedIe = s.savedIe := rfl
@[simp] theorem State.irqArrives_done (s : State) : (s.irqArrives).done = s.done := rfl
@[simp] theorem State.irqArrives_ie (s : State) : (s.irqArrives).ie = s.ie := rfl
@[simp] theorem State.irqArrives_buf (s : State) : (s.irqArrives).buf = s.buf := rfl
@[simp] theorem State.irqArrives_pwb (s : State) : (s.irqArrives).pwb = s.pwb := rfl
@[simp] theorem State.irqArrives_nvm (s : State) : (s.irqArrives).nvm = s.nvm := rfl
@[simp] theorem State.irqArrives_nvmDraw (s : State) : (s.irqArrives).nvmDraw = s.nvmDraw := rfl
@[simp] theorem State.irqArrives_rxq (s : State) : (s.irqArrives).rxq = s.rxq := rfl
@[simp] theorem State.irqArrives_txq (s : State) : (s.irqArrives).txq = s.txq := rfl
@[simp] theorem State.irqArrives_nvmPend (s : State) : (s.irqArrives).nvmPend = s.nvmPend := rfl
@[simp] theorem State.irqArrives_rwwEn (s : State) : (s.irqArrives).rwwEn = s.rwwEn := rfl
@[simp] theorem State.irqArrives_irqPending (s : State) : (s.irqArrives).irqPending = s.irqPending + 1 := rfl
@[simp] theorem State.irqArrives_script (s : State) : (s.irqArrives).script = s.script := rfl
@[simp] theorem State.irqArrives_fresh (s : State) : (s.irqArrives).fresh = s.fresh := rfl
@[simp] theorem State.irqArrives_bufDraw (s : State) : (s.irqArrives).bufDraw = s.bufDraw := rfl
@[simp] theorem State.irqArrives_pwbDraw (s : State) : (s.irqArrives).pwbDraw = s.pwbDraw := rfl

end Sys2Proof.Machine
end

