-- ==== Sys2Proof/Laws/Ops.lean ====
section
/-! SUPPORT. One lemma per shared operation that says once everything it can do: when it answers a next state, and which. -/

namespace Sys2Proof.Machine

/-! ## Sequencing -/

@[simp] theorem andThen_next (s : State) (f : State → Result) : andThen (.next s) f = f s := rfl
@[simp] theorem andThen_fault (r : Fault) (f : State → Result) : andThen (.fault r) f = .fault r := rfl
@[simp] theorem andThen_refused (r : Refusal) (f : State → Result) : andThen (.refused r) f = .refused r := rfl

theorem next_eq_next {s t : State} : (Host.Outcome.next s : Result) = .next t ↔ t = s := by
  rw [Host.Outcome.next.injEq]; exact eq_comm

/-- A sequence answers a next state exactly when both its parts do. -/
theorem andThen_eq_next {o : Result} {f : State → Result} {t : State} :
    andThen o f = .next t ↔ ∃ s, o = .next s ∧ f s = .next t := by
  cases o <;> simp

/-- A sequence faults when its first part does, or its second on the first's answer. -/
theorem andThen_eq_fault {o : Result} {f : State → Result} {r : Fault} :
    andThen o f = .fault r ↔ o = .fault r ∨ ∃ s, o = .next s ∧ f s = .fault r := by
  cases o <;> simp

/-- A sequence is refused when its first part is, or its second on the first's answer. -/
theorem andThen_eq_refused {o : Result} {f : State → Result} {r : Refusal} :
    andThen o f = .refused r ↔ o = .refused r ∨ ∃ s, o = .next s ∧ f s = .refused r := by
  cases o <;> simp

theorem andThen_assoc (o : Result) (f g : State → Result) :
    andThen (andThen o f) g = andThen o fun s => andThen (f s) g := by
  cases o <;> rfl

theorem andThen_pure (o : Result) : andThen o .next = o := by cases o <;> rfl

theorem State.receiverAt_iff (s : State) (c : Ctl) : s.receiverAt c = true ↔ s.ppStep = .idle ∧ s.ctl = c := by
  simp [State.receiverAt]

theorem State.receiverAtMark_iff (s : State) :
    s.receiverAtMark = true ↔ s.ppStep = .idle ∧ (s.ctl = .awaitMark ∨ s.ctl = .hdrMark) := by
  cases h : s.ctl <;> simp [State.receiverAtMark, Ctl.atMark, h]

/-! ## Buffer and controller -/

theorem Config.inBuf_iff (c : Config) (lo n : Nat) : c.inBuf lo n = true ↔ lo + n ≤ c.bufSize := by
  simp [Config.inBuf]

theorem Config.isPageAddr_iff (c : Config) (a : Nat) :
    c.isPageAddr a = true ↔ a % c.pageSize = 0 ∧ a < c.nvmSize := by
  simp [Config.isPageAddr]

theorem Config.isFillOffset_iff (c : Config) (o : Nat) :
    c.isFillOffset o = true ↔ o % 2 = 0 ∧ o + 2 ≤ c.pageSize := by
  simp [Config.isFillOffset]

/-- A buffer write answers a next state exactly at an index the buffer has; then only that byte differs. -/
theorem bufWrite_eq_next {i : Nat} {b : Byte} {s t : State} :
    bufWrite i b s = .next t ↔ i + 1 ≤ s.cfg.bufSize ∧ t = { s with buf := Memory.write s.buf i b } := by
  unfold bufWrite
  rw [← Config.inBuf_iff]
  cases s.cfg.inBuf i 1
  · simp
  · simp only [if_true, true_and]; exact next_eq_next

/-- An erase or write command answers a next state exactly when the controller is idle and the address is a page's; then the operation
is outstanding, reads are closed, and nothing else differs. -/
theorem startNvmOp_eq_next {op : NvmOp} {a : Nat} {s t : State} :
    startNvmOp op a s = .next t ↔
      s.nvmBusy = false ∧ s.cfg.isPageAddr a = true ∧ t = { s with rwwEn := false, nvmPend := some op } := by
  unfold startNvmOp whileIdle
  dsimp only
  cases s.nvmBusy <;> cases s.cfg.isPageAddr a <;> simp
  exact eq_comm

/-- A fill answers a next state exactly when the controller is idle and the offset is one of the page's; then one word of the page
write buffer is written, and nothing else differs. -/
theorem execNvmFill_eq_next {o : Nat} {w : Word} {s t : State} :
    execNvmFill o w s = .next t ↔
      s.nvmBusy = false ∧ s.cfg.isFillOffset o = true ∧ t = { s with pwb := Memory.write s.pwb (o / 2) w } := by
  unfold execNvmFill whileIdle
  dsimp only
  cases s.nvmBusy <;> cases s.cfg.isFillOffset o <;> simp
  exact eq_comm

/-- A restore answers a next state exactly when the controller is idle; then reads are open, and nothing else differs. -/
theorem execNvmRwwen_eq_next {s t : State} :
    execNvmRwwen s = .next t ↔ s.nvmBusy = false ∧ t = { s with rwwEn := true } := by
  unfold execNvmRwwen whileIdle
  cases s.nvmBusy <;> simp
  exact eq_comm

/-- A write puts two bytes of every staged word into the page. -/
theorem State.pwbBytes_length (s : State) : s.pwbBytes.length = 2 * s.cfg.pageWords := by
  unfold State.pwbBytes
  generalize s.cfg.pageWords = n
  induction n with
  | zero => rfl
  | succ n ih => rw [List.range_succ, List.flatMap_append, List.length_append, ih]; simp; omega

@[simp] theorem State.bufSpan_length (s : State) (lo n : Nat) : (s.bufSpan lo n).length = n := by
  simp [State.bufSpan]

/-- A byte of `BUF` after a write: the byte written at that index, the old byte elsewhere. -/
theorem State.bufByte_write (s : State) (i : Nat) (b : Byte) (k : Nat) :
    State.bufByte { s with buf := Memory.write s.buf i b } k = if k = i then b else s.bufByte k := by
  simp only [State.bufByte, Memory.read_write]; split <;> rfl

/-- A word of `PWB` after a fill: the word staged at that index, the old word elsewhere. -/
theorem State.pwbWord_write (s : State) (i : Nat) (w : Word) (k : Nat) :
    State.pwbWord { s with pwb := Memory.write s.pwb i w } k = if k = i then w else s.pwbWord k := by
  simp only [State.pwbWord, Memory.read_write]; split <;> rfl

/-- Any command to a busy controller faults (R187). -/
theorem whileIdle_busy {f : State → Result} {s : State} (h : s.nvmBusy = true) :
    whileIdle f s = .fault .nvmCommandWhileBusy := by
  simp [whileIdle, h]

/-- A wait step always answers a next state: the same one while the controller is busy. -/
theorem waitReady_eq (go : State → State) (s : State) :
    waitReady go s = .next (if s.nvmBusy then s else go s) := rfl

/-- Completion leaves nothing outstanding. -/
@[simp] theorem State.nvmcComplete_nvmPend (s : State) : s.nvmcComplete.nvmPend = none := by
  unfold State.nvmcComplete; split <;> simp_all

@[simp] theorem State.nvmcComplete_nvmBusy (s : State) : s.nvmcComplete.nvmBusy = false := by
  simp [State.nvmBusy]

/-- What a completion can change: program memory and its draws, the page write buffer, the outstanding operation and the draws. -/
theorem State.nvmcComplete_frame (s : State) :
    s.nvmcComplete =
      { s with nvm := s.nvmcComplete.nvm, nvmDraw := s.nvmcComplete.nvmDraw, pwb := s.nvmcComplete.pwb, pwbDraw := s.nvmcComplete.pwbDraw
               fresh := s.nvmcComplete.fresh, nvmPend := none } := by
  unfold State.nvmcComplete
  split
  · next h => rw [← h]
  all_goals rfl

/-- The draws of a page that became unspecified: the next draw inside the page, the old ones outside. -/
theorem State.read_redrawPage (s : State) (a x : Nat) :
    Memory.read (s.redrawPage a) x = if a ≤ x ∧ x < a + s.cfg.pageSize then some s.fresh else Memory.read s.nvmDraw x := by
  unfold State.redrawPage
  rw [Memory.read_writeAll, List.length_replicate]
  split
  · next h => rw [List.getElem?_replicate, if_pos (by omega)]
  · rfl

/-- A known byte is the byte stored. -/
theorem State.storedByte_of_read {s : State} {a : Nat} {b : Byte} (h : Memory.read s.nvm a = some b) : s.storedByte a = b := by
  simp [State.storedByte, h]

/-- The byte stored at `a` depends on nothing but its cell and its draw. -/
theorem State.storedByte_congr {s t : State} {a : Nat} (h : Memory.read t.nvm a = Memory.read s.nvm a)
    (h' : Memory.read t.nvmDraw a = Memory.read s.nvmDraw a) : t.storedByte a = s.storedByte a := by
  simp [State.storedByte, h, h']

/-- A read of readable memory gives the stored bytes and changes nothing. -/
theorem memRead_readable {s : State} {addr n : Nat} (h : addr + n ≤ s.cfg.nvmSize) (hr : s.readable = true) :
    memRead addr n s = .ok ((List.range n).map fun k => s.storedByte (addr + k), s) := by
  simp [memRead, h, State.observedByte, State.afterRead, hr]

/-! ## Page Programmer -/

/-- Staging answers a next state exactly when the controller is idle and the word and its offset exist; then one word is staged and
the index advances. -/
theorem ppStage_eq_next {s t : State} :
    ppStage s = .next t ↔
      s.cfg.inBuf s.stageSrc 2 = true ∧ s.nvmBusy = false ∧ s.cfg.isFillOffset (2 * s.widx) = true ∧
      t = State.staged { s with pwb := Memory.write s.pwb s.widx s.stageWord } := by
  have hw : 2 * s.widx / 2 = s.widx := by omega
  unfold ppStage
  cases hb : s.cfg.inBuf s.stageSrc 2
  · simp
  · simp only [if_true, andThen_eq_next, execNvmFill_eq_next, hw]
    constructor
    · rintro ⟨u, ⟨h1, h2, rfl⟩, h3⟩
      exact ⟨trivial, h1, h2, next_eq_next.1 h3⟩
    · rintro ⟨-, h1, h2, rfl⟩
      exact ⟨_, ⟨h1, h2, rfl⟩, rfl⟩

/-! ## Receiver -/

/-- The guard of a flush answers a next state exactly inside the application region (R105). -/
theorem flushGuard_eq_next {s t : State} :
    flushGuard s = .next t ↔ s.taddr + s.cfg.pageSize ≤ s.cfg.appLimit ∧ t = s.goto .ackAdv := by
  unfold flushGuard
  split
  · simp; omega
  · next h => simp only [Nat.not_lt.1 h, true_and]; exact next_eq_next

/-- The only fault of the guard is the bound's (R186). -/
theorem flushGuard_eq_fault {s : State} {r : Fault} :
    flushGuard s = .fault r ↔ s.cfg.appLimit < s.taddr + s.cfg.pageSize ∧ r = .commitOutsideAppRegion s.taddr := by
  unfold flushGuard
  split <;> simp_all [eq_comm]

/-- Receiving a concatenation is receiving its parts one after another. -/
theorem rcvBytes_append (xs ys : List Byte) (s : State) :
    rcvBytes (xs ++ ys) s = andThen (rcvBytes xs s) (rcvBytes ys) := by
  induction xs generalizing s with
  | nil => rfl
  | cons b bs ih =>
    simp only [List.cons_append, rcvBytes, andThen_assoc]
    cases rcvByte b s <;> simp [ih]

/-- Validating answers a next state exactly when the span exists; then `CRCV` holds its code and the comparison has decided. -/
theorem validate_eq_next {s t : State} :
    validate s = .next t ↔
      s.spanInBuf = true ∧ t = State.judge { s with crcv := crc16 s.cfg s.validSpan } := by
  unfold validate execCrc16
  cases s.spanInBuf
  · simp
  · simp only [if_true, true_and, andThen_next]; exact next_eq_next

end Sys2Proof.Machine
end

