-- ==== Sys2Proof/Laws/PerInstr.lean ====
section
/-! SUPPORT. Statements per instruction: the interface an instruction passes over and the length of its encoding (R61 to R65). -/

namespace Sys2Proof

theorem bytesOf_length (n v : Nat) : (bytesOf n v).length = n := by
  induction n generalizing v with
  | zero => rfl
  | succ n ih => simp [bytesOf, ih]

theorem encodeCommand_length (c : Config) (cmd addr data : Nat) :
    (encodeCommand c cmd addr data).length = c.commandBytes := bytesOf_length _ _

namespace Laws.EncodedLength

/-- The interface and the number of bytes the format of an instruction has: PKT 133 (R62), CTL 1 (R63), NVMCMD the bytes of its
triple (R65); none for the internal operations (R61). -/
def format (c : Config) : Instr → Option (Channel × Nat)
  | .soh _ _ _ _ _ => some (.received, 133)
  | .eot => some (.received, 1)
  | .crq | .ack | .nak => some (.sent, 1)
  | .nvmErase _ | .nvmFill _ _ | .nvmWrite _ | .nvmRwwen => some (.command, c.commandBytes)
  | .crc16 _ | .commit _ _ => none

/-- A well-formed instruction is encoded over its format's interface, in its format's number of bytes. -/
def Statement (i : Instr) : Prop :=
  ∀ c : Config, i.wellFormed c = true → (encode c i).map (fun e => (e.1, e.2.length)) = format c i

theorem soh (seq cmp : Byte) (payload : List Byte) (crcHi crcLo : Byte) :
    Statement (.soh seq cmp payload crcHi crcLo) := by
  intro c h
  simp only [Instr.wellFormed, beq_iff_eq, blockSize] at h
  simp [encode, format, h]

theorem eot : Statement .eot := fun _ _ => rfl
theorem crq : Statement .crq := fun _ _ => rfl
theorem ack : Statement .ack := fun _ _ => rfl
theorem nak : Statement .nak := fun _ _ => rfl

theorem nvmErase (a : Nat) : Statement (.nvmErase a) :=
  fun c _ => by simp [encode, format, encodeCommand_length]

theorem nvmFill (o : Nat) (w : Word) : Statement (.nvmFill o w) :=
  fun c _ => by simp [encode, format, encodeCommand_length]

theorem nvmWrite (a : Nat) : Statement (.nvmWrite a) :=
  fun c _ => by simp [encode, format, encodeCommand_length]

theorem nvmRwwen : Statement .nvmRwwen :=
  fun c _ => by simp [encode, format, encodeCommand_length]

theorem crc16 (bytes : List Byte) : Statement (.crc16 bytes) := fun _ _ => rfl
theorem commit (pageAddress src : Nat) : Statement (.commit pageAddress src) := fun _ _ => rfl

end Laws.EncodedLength

end Sys2Proof
end

