-- ==== Sys2Proof/Laws/Step.lean ====
section
/-! SUPPORT. What one step of the machine is: the block's, the controller's, or the script's next move. -/

namespace Sys2Proof.Machine

theorem State.popScript_nil {s : State} (h : s.script = []) : s.popScript = s := by
  cases s; simp only at h; subst h; rfl

/-- A configuration that breaks R7 is refused at every state. -/
theorem step_refused {s : State} (h : s.cfg.admitted = false) : step s = .refused .configRefused := by
  simp [step, h]

/-- With a move in the script the step is that move. -/
theorem step_script {s : State} {e : Event} {es : List Event} (ha : s.cfg.admitted = true) (h : s.script = e :: es) :
    step s = runEvent e { s with script := es } := by
  simp [step, ha, agentStep, State.nextEvent, State.popScript, h]

/-- With an empty script an enabled block moves. -/
theorem step_rcv {s : State} (ha : s.cfg.admitted = true) (h : s.script = []) (he : s.rcvEnabled = true) :
    step s = rcvStep s := by
  simp [step, ha, agentStep, State.nextEvent, h, State.defaultEvent, he, State.popScript_nil h, runEvent]

/-- With an empty script and the block waiting, a busy controller completes. -/
theorem step_complete {s : State} (ha : s.cfg.admitted = true) (h : s.script = []) (he : s.rcvEnabled = false)
    (hb : s.nvmBusy = true) : step s = .next s.nvmcComplete := by
  simp [step, ha, agentStep, State.nextEvent, h, State.defaultEvent, he, hb, State.popScript_nil h, runEvent]

/-- While no commit runs the block's step is the Receiver's. -/
theorem rcvStep_idle {s : State} (h : s.ppStep = .idle) : rcvStep s = receiverStep s := by simp [rcvStep, h]

/-- While a commit runs the block's step is the Page Programmer's (R145). -/
theorem rcvStep_running {s : State} (h : s.ppStep ≠ .idle) : rcvStep s = ppStep s := by simp [rcvStep, h]

/-- A reading phase with a byte waiting takes it. -/
theorem rcvRead_cons {s : State} {b : Byte} {rest : List Byte} (h : s.rxq = b :: rest) :
    rcvRead s = rcvByte b { s with rxq := rest } := by
  simp [rcvRead, h, State.dropRx]

/-- Where an instruction starts, a whole-unit step runs it; elsewhere it is the block's step. -/
theorem unitStep_some {s : State} {i : Instr} (h : fetch s = some i) : unitStep s = runInstr i s := by simp [unitStep, h]
theorem unitStep_none {s : State} (h : fetch s = none) : unitStep s = rcvStep s := by simp [unitStep, h]

end Sys2Proof.Machine
end

