-- ==== Sys2Proof/Machine/SenderScript.lean ====
section
/-! DEFINITION. The sender: the script notation of R74 and R75 (spec/30_encoding.md), and the well-behaved sender of R160. The block
assumes nothing of it. -/

namespace Sys2Proof.Machine

/-- `fill(v)`: 128 bytes all equal to `v` (R74). -/
def fill (v : Byte) : List Byte := List.replicate blockSize v

/-- `ramp(a)`: the bytes `a`, `a+1`, ..., `a+127`, each modulo 256 (R74). -/
def ramp (a : Byte) : List Byte := (List.range blockSize).map fun k => a + BitVec.ofNat 8 k

/-- A line of a sender's script (R74, R75). -/
inductive ScriptLine where
  | pkt (seq cmp : Byte) (payload : List Byte) (code : Word)
  | eot
  | raw (bytes : List Byte)
  | good (n : Nat) (payload : List Byte)
  | bad (n : Nat) (payload : List Byte)
  deriving DecidableEq, Repr

/-- The bytes of a packet with its code (R74). -/
def pktBytes (seq cmp : Byte) (payload : List Byte) (code : Word) : List Byte :=
  symSOH :: packetBody seq cmp payload (highByte code) (lowByte code)

/-- What a line assembles to (R74), the pseudo-lines `GOOD` and `BAD` by their expansion (R75). -/
def ScriptLine.bytes (c : Config) : ScriptLine → List Byte
  | .pkt seq cmp payload code => pktBytes seq cmp payload code
  | .eot => [symEOT]
  | .raw bytes => bytes
  | .good n payload => pktBytes (BitVec.ofNat 8 n) (255 - BitVec.ofNat 8 n) payload (crc16 c payload)
  | .bad n payload => pktBytes (BitVec.ofNat 8 n) (255 - BitVec.ofNat 8 n) payload (crc16 c payload ^^^ 0x0001)

/-- What a well-behaved sender waits for (R160). -/
inductive SenderPhase where
  /-- for `CRQ`, before the first unit -/
  | awaitRequest
  /-- for the answer to the unit sent last -/
  | awaitAnswer
  deriving DecidableEq, Repr

/-- A well-behaved sender (R160): the units still to be acknowledged, the first of them the one sent last. -/
structure Sender where
  phase : SenderPhase
  units : List (List Byte)
  deriving DecidableEq, Repr

/-- The sender puts its first unit, if there is one, into `RXQ`. -/
def Sender.sendFirst (sd : Sender) (s : State) : State :=
  match sd.units with
  | [] => s
  | u :: _ => { s with rxq := s.rxq ++ u }

/-- What a well-behaved sender does when it looks at `TXQ` (R160): nothing while it is empty; it takes one byte. On `CRQ` it sends
its first unit; on `ACK` it goes on to the next unit, on `NAK` it sends the same one again. A byte other than the one it waits for
(not `CRQ` before the first unit, neither `ACK` nor `NAK` after one), of which R160 says nothing, is taken and it goes on waiting
(DESIGN CHOICE, log 33). -/
def Sender.act (sd : Sender) (s : State) : Sender × State :=
  match s.txq with
  | [] => (sd, s)
  | b :: _ =>
    match sd.phase with
    | .awaitRequest =>
      if b = symCRQ then ({ sd with phase := .awaitAnswer }, sd.sendFirst s.sndTake) else (sd, s.sndTake)
    | .awaitAnswer =>
      if b = symACK then
        let next : Sender := { sd with units := sd.units.drop 1 }
        (next, next.sendFirst s.sndTake)
      else if b = symNAK then (sd, sd.sendFirst s.sndTake)
      else (sd, s.sndTake)

end Sys2Proof.Machine
end

