-- ==== Sys2Proof/Tests/Slice0.lean ====
section
/-! SUPPORT. The model's own tests: ill-formed terms refused, decodings of words written out from the spec, the vectors of
spec/95_test_vectors.md, and for every obligation with hypotheses a state and operands that meet them. -/

namespace Sys2Proof.Tests

open Sys2Proof.Machine

set_option maxRecDepth 10000
set_option Elab.async false

/-! ## Helpers -/

/-- The next state, if there is one. -/
def stateOf : Result → Option State
  | .next s => some s
  | .fault _ => none
  | .refused _ => none

/-- The fault, if there is one. -/
def faultOf : Result → Option Fault
  | .fault r => some r
  | .next _ => none
  | .refused _ => none

/-- The refusal, if there is one. -/
def refusalOf : Result → Option Refusal
  | .refused r => some r
  | .next _ => none
  | .fault _ => none

theorem exists_next {r : Result} (h : (stateOf r).isSome = true) : ∃ t, r = .next t := by
  cases r with
  | next s => exact ⟨s, rfl⟩
  | fault _ => simp [stateOf] at h
  | refused _ => simp [stateOf] at h

theorem eq_next {r : Result} {t : State} (h : stateOf r = some t) : r = .next t := by
  cases r with
  | next s => simpa [stateOf] using h
  | fault _ => simp [stateOf] at h
  | refused _ => simp [stateOf] at h

theorem eq_fault {r : Result} {f : Fault} (h : faultOf r = some f) : r = .fault f := by
  cases r with
  | next s => simp [faultOf] at h
  | fault _ => simpa [faultOf] using h
  | refused _ => simp [faultOf] at h

/-- The vectors' configuration with page size 64, or 256. -/
def page64 : Config := { Config.standard with pageSize := 64 }
def page256 : Config := { Config.standard with pageSize := 256 }

/-- The Receiver at a phase, everything else as after reset. -/
def stand (c : Config) (ctl : Ctl) : State := { State.resetOf c with ctl := ctl }

/-- A commit of page 0 at a step, everything else as after reset. -/
def running (c : Config) (p : PpStep) : State :=
  { State.resetOf c with ctl := .ackAdv, woff := c.bufSize, ppStep := p }

/-- A payload of zeros, whose code is 0 (V-CRC-10). -/
def zeros : List Byte := List.replicate 128 0

/-! ## Well-formedness: a term that breaks each check is refused -/

theorem test_illFormed_soh_127 : Instr.wellFormed Config.standard (.soh 1 254 (List.replicate 127 0) 0 0) = false := by decide +kernel
theorem test_wellFormed_soh_128 : Instr.wellFormed Config.standard (.soh 1 7 zeros 0 0) = true := by decide +kernel
theorem test_illFormed_erase_inside_page : Instr.wellFormed Config.standard (.nvmErase 0x40) = false := by decide +kernel
theorem test_illFormed_erase_past_memory : Instr.wellFormed Config.standard (.nvmErase 0x8000) = false := by decide +kernel
theorem test_illFormed_fill_odd : Instr.wellFormed page64 (.nvmFill 1 0) = false := by decide +kernel
theorem test_illFormed_fill_past_page : Instr.wellFormed page64 (.nvmFill 64 0) = false := by decide +kernel
theorem test_wellFormed_fill_last : Instr.wellFormed page64 (.nvmFill 62 0) = true := by decide +kernel
theorem test_illFormed_write_inside_page : Instr.wellFormed Config.standard (.nvmWrite 0x40) = false := by decide +kernel
theorem test_illFormed_commit_address : Instr.wellFormed page64 (.commit 0x41 0) = false := by decide +kernel
theorem test_illFormed_commit_slice : Instr.wellFormed page64 (.commit 0x40 65) = false := by decide +kernel
theorem test_wellFormed_commit_second_page : Instr.wellFormed page64 (.commit 0x40 64) = true := by decide +kernel
/-- V-FL-10: 192 is neither 64 nor a multiple of 128. -/
theorem test_config_192_not_admitted : Config.admitted { Config.standard with pageSize := 192 } = false := by decide +kernel
theorem test_configs_admitted :
    Config.standard.admitted = true ∧ page64.admitted = true ∧ page256.admitted = true := by decide +kernel

/-! ## Decoding: words written out from the encodings of R62 to R66 -/

/-- PKT (R62), the packet of V-RCV-5: `seq` 7, `cmp` 7, code bytes `ED A9`, and one byte after it. -/
theorem test_decode_soh :
    (decode Config.standard .received
        (0b00000001 :: 0b00000111 :: 0b00000111 ::
          (List.replicate 128 0b11111111 ++ [0b11101101, 0b10101001, 0b00000100]))).toOption =
      some (.soh 0x07 0x07 (List.replicate 128 0xFF) 0xED 0xA9, [0x04]) := by decide +kernel
theorem test_decode_eot : decode Config.standard .received [0b00000100] = .ok (.eot, []) := rfl
theorem test_decode_crq : decode Config.standard .sent [0b01000011] = .ok (.crq, []) := rfl
theorem test_decode_ack : decode Config.standard .sent [0b00000110] = .ok (.ack, []) := rfl
theorem test_decode_nak : decode Config.standard .sent [0b00010101] = .ok (.nak, []) := rfl
/-- NVMCMD (R65), V-NVM-1: `cmd` 001, `addr` 0x0040 in the 16 bits above it. -/
theorem test_decode_erase :
    decode Config.standard .command [0b00000001, 0b00000010, 0, 0, 0] = .ok (.nvmErase 0x0040, []) := rfl
/-- V-NVM-2: `cmd` 010, `addr` 0x0002, `data` 0x0302. -/
theorem test_decode_fill :
    decode Config.standard .command [0b00010010, 0b00000000, 0b00010000, 0b00011000, 0b00000000] =
      .ok (.nvmFill 0x0002 0x0302, []) := rfl
/-- V-NVM-3: `cmd` 011, `addr` 0x0040. -/
theorem test_decode_write :
    decode Config.standard .command [0b00000011, 0b00000010, 0, 0, 0] = .ok (.nvmWrite 0x0040, []) := rfl
/-- V-NVM-4: `cmd` 100; the other fields are ignored. -/
theorem test_decode_rwwen :
    decode Config.standard .command [0b11111100, 0b11111111, 0b11111111, 0b11111111, 0b00000111] = .ok (.nvmRwwen, []) := rfl
/-- V-NVM-7, R72. -/
theorem test_decode_reserved :
    decode Config.standard .command [0b00000101, 0, 0, 0, 0] = .error (.reservedCommand 5) := rfl
/-- R71: 0x18 (`CAN`) is no marker. -/
theorem test_decode_unrecognised : decode Config.standard .received [0x18] = .error (.unrecognisedMarker 0x18) := rfl
/-- R69: a packet needs 133 bytes. -/
theorem test_decode_incomplete : decode Config.standard .received (0x01 :: List.replicate 131 0) = .error .incomplete := rfl
theorem test_decode_empty : decode Config.standard .received [] = .error .empty := rfl
/-- R73: `SOH` is never sent. -/
theorem test_decode_neverSent : decode Config.standard .sent [0x01] = .error (.neverSent 0x01) := rfl

/-- The table's numbering (log 19). -/
theorem test_table_words :
    decodeTableWord 8 0x04 = some .eot ∧ decodeTableWord 8 0x43 = some .crq ∧ decodeTableWord 8 0x06 = some .ack ∧
    decodeTableWord 8 0x15 = some .nak ∧ decodeTableWord 8 1 = some (.nvmErase 0) ∧
    decodeTableWord 8 2 = some (.nvmFill 0 0) ∧ decodeTableWord 8 3 = some (.nvmWrite 0) ∧
    decodeTableWord 40 4 = some .nvmRwwen ∧ decodeTableWord 1064 1 = some (.soh 0 0 zeros 0 0) := by decide +kernel

/-- A placed word is the next step: `CRQ` after reset. -/
theorem test_withFetchWord_crq :
    stateOf (step (State.reset.withFetchWord 8 0x43)) = some { State.reset with ctl := .awaitMark, txq := [0x43] } := by decide +kernel
/-- `NVM_FILL(0, 0)` after reset. -/
theorem test_withFetchWord_fill :
    (stateOf (step (State.reset.withFetchWord 8 2))).map (fun t => (t.pwb, t.widx, t.ppStep)) = some ([(0, 0)], 1, .s5) := by
  decide +kernel

/-! ## Codes of the sequencing registers (R12, R13, R21) -/

theorem test_codes :
    [Ctl.awaitHold, .awaitMark, .hdrCmp, .payCrcLo, .validating, .ackFlush, .ackSend, .rejecting, .termEnd].map
        (fun c => (c.stCode.toNat, c.phCode.toNat)) =
      [(0, 0), (0, 2), (1, 2), (2, 2), (3, 0), (4, 1), (4, 3), (5, 0), (6, 1)] := by decide +kernel

/-! ## CRC Engine (part 2.1 of the vectors) -/

theorem test_crcByte : [0x00, 0x01, 0x80, 0xFF].map (crcByte 0x1021 0) = [0x0000, 0x1021, 0x9188, 0x1EF0] := by decide +kernel
theorem test_crc_check_string :
    crc16 Config.standard [0x31, 0x32, 0x33, 0x34, 0x35, 0x36, 0x37, 0x38, 0x39] = 0x31C3 := by decide +kernel
theorem test_crc_short :
    [[], [0x41], [0x01, 0x02]].map (crc16 Config.standard) = [0x0000, 0x58E5, 0x1373] := by decide +kernel
/-- V-CRC-9. -/
theorem test_crc_ff : crc16 Config.standard (fill 0xFF) = 0xEDA9 := by decide +kernel
/-- V-CRC-10. -/
theorem test_crc_zeros (c : Config) (hp : c.crcPoly = 0x1021) (hi : c.crcInit = 0) : crc16 c zeros = 0 := by
  have : crcFrom 0x1021 0 zeros = 0 := by decide +kernel
  rw [crc16, hp, hi, this]
/-- V-CRC-12. -/
theorem test_crc_ramp : crc16 Config.standard (ramp 0) = 0xE80A := by decide +kernel

/-- R66, R67: the code is big-endian, a memory word little-endian. -/
theorem test_byte_orders : codeOf 0xED 0xA9 = 0xEDA9 ∧ wordOf 0x00 0x01 = 0x0100 := by decide +kernel

/-! ## Steps -/

/-- V-RCV-2: `EOT` at the first marker. -/
theorem test_eot :
    stateOf (exec .eot { stand Config.standard .awaitMark with txq := [0x43] }) =
      some { stand Config.standard .termEnd with txq := [0x43, 0x06], done := true } := by decide +kernel
/-- V-RCV-8: `CAN` is dropped. -/
theorem test_can_dropped :
    stateOf (step { stand Config.standard .awaitMark with txq := [0x43], rxq := [0x18] }) =
      some { stand Config.standard .awaitMark with txq := [0x43] } := by decide +kernel
theorem test_crq_notEnabled : refusalOf (exec .crq State.reset) = some .notEnabled := by decide +kernel
/-- V-RCV-3, the rollback: `WOFF` 128 to 0. -/
theorem test_nak :
    (stateOf (exec .nak { stand Config.standard .rejecting with woff := 128 })).map (fun t => (t.woff, t.txq, t.ctl)) =
      some (0, [0x15], .hdrMark) := by decide +kernel
theorem test_ack_end :
    (stateOf (exec .ack (stand Config.standard .termSend))).map (fun t => (t.done, t.txq, t.ctl)) =
      some (true, [0x06], .termEnd) := by decide +kernel
/-- V-NVM-1. -/
theorem test_erase :
    stateOf (exec (.nvmErase 0x40) (State.resetOf page64)) =
      some { State.resetOf page64 with nvmPend := some (.erase 0x40), rwwEn := false } := by decide +kernel
/-- V-NVM-2. -/
theorem test_fill :
    (stateOf (exec (.nvmFill 2 0x0302) (State.resetOf page64))).map (fun t => (t.pwb, t.nvmBusy)) =
      some ([(1, 0x0302)], false) := by decide +kernel
theorem test_write :
    (stateOf (exec (.nvmWrite 0x40) (State.resetOf page64))).map (fun t => (t.nvmPend, t.rwwEn)) =
      some (some (.write 0x40), false) := by decide +kernel
/-- V-NVM-4. -/
theorem test_rwwen :
    (stateOf (exec .nvmRwwen { State.resetOf page64 with rwwEn := false })).map (·.rwwEn) = some true := by decide +kernel
/-- V-NVM-6. -/
theorem test_busy :
    faultOf (exec .nvmRwwen { State.resetOf page64 with nvmPend := some .foreign }) = some .nvmCommandWhileBusy := by decide +kernel
/-- V-FL-8. -/
theorem test_bound :
    faultOf (step { stand Config.standard .ackFlush with woff := 128, taddr := 0x7000 }) =
      some (.commitOutsideAppRegion 0x7000) := by decide +kernel
/-- V-PP-1, line 7: `NVM_FILL(2, 0x0302)` from the bytes `02 03`. -/
theorem test_stage :
    (stateOf (step { running Config.standard .s5 with widx := 1, buf := [(2, 0x02), (3, 0x03)] })).map
        (fun t => (t.pwb, t.widx, t.ppStep)) = some ([(1, 0x0302)], 2, .s5) := by decide +kernel
/-- V-PP-1, line 4. -/
theorem test_complete_erase :
    (stateOf (runEvent .complete { running page64 .s4 with nvmPend := some (.erase 0) })).map
        (fun t => (t.nvm.length, Memory.read t.nvm 63, Memory.read t.nvm 64, t.nvmBusy)) =
      some (64, some 0xFF, none, false) := by decide +kernel

/-- V-PP-3, the shape of the commit: the second page of `ramp(0)` goes to 0x0040, its bytes in order. -/
theorem test_commit :
    (stateOf (exec (.commit 0x40 64)
        { stand page64 .ackAdv with ie := true, buf := (List.range 128).map fun k => (k, BitVec.ofNat 8 k) })).map
        (fun t => (t.nvm, t.ie, t.rwwEn, t.nvmPend, t.ppStep)) =
      some ((List.range 64).map (fun k => (0x40 + k, BitVec.ofNat 8 (0x40 + k))), true, true, none, .idle) := by decide +kernel

/-- V-NVM-5, before and after the restore: in the window a read gives values the spec does not state. -/
theorem test_observer :
    ((memRead 0x40 2 { State.resetOf page64 with nvm := [(0x40, 0x40), (0x41, 0x41)] }).toOption.map (·.1)) =
      some [0x40, 0x41] := by decide +kernel

/-- R47, R157: a read of readable memory changes nothing, also where a byte of no known value is read. -/
theorem test_observer_twice :
    ∃ bs, memRead 0x40 2 State.reset = .ok (bs, State.reset) ∧ bs = [State.reset.storedByte 0x40, State.reset.storedByte 0x41] :=
  ⟨_, rfl, rfl⟩

/-- V-RST-3, the draws: the bytes of the page hold new values, no other byte does. -/
theorem test_reset_in_erase_draws :
    (stateOf (runEvent (.reset ⟨true, false, [], [], 0⟩) { running page64 .s4 with nvmPend := some (.erase 0) })).map
        (fun t => [0, 63, 64].map (Memory.read t.nvmDraw)) = some [some 1, some 1, none] := by decide +kernel

/-- V-RST-3: a reset in an erase forgets the page and no other byte. -/
theorem test_reset_in_erase :
    (stateOf (runEvent (.reset ⟨true, false, [], [], 0⟩)
        { running page64 .s4 with nvmPend := some (.erase 0), nvm := [(3, 0x11), (64, 0x22)] })).map
        (fun t => (t.nvm, t.nvmPend, t.ctl, t.ie)) = some ([(64, 0x22)], none, .awaitHold, true) := by decide +kernel

/-- The memories of the reset state are in canonical form. -/
theorem test_reset_memory : State.reset.memoryOk := by unfold State.memoryOk; decide

/-- V-RCV-3: a wrong code; the left-over bytes stay above `WOFF`. -/
theorem test_soh_rejected :
    (stateOf (exec (.soh 0x01 0xFE (fill 0xFF) 0xED 0xA8) { stand Config.standard .awaitMark with txq := [0x43] })).map
        (fun t => (t.ctl, t.woff, t.txq, t.crcv, Memory.read t.buf 127)) =
      some (.hdrMark, 0, [0x43, 0x15], 0xEDA9, some 0xFF) := by decide +kernel

/-- V-FL-1, the packet of P2: two commits, then the acknowledge. -/
theorem test_soh_two_pages :
    (stateOf (exec (.soh 0x01 0xFE (ramp 0) 0xE8 0x0A) (stand page64 .hdrMark))).map
        (fun t => (t.woff, t.taddr, t.flushK, t.txq)) =
      some (0, 0x80, 2, [0x06]) := by decide +kernel

/-! ## Witnesses: a state and operands that meet the hypotheses of each obligation, by clause -/

theorem witness_ResetReturnsTheBlockToHold :
    (running page64 .s4).noOwnOp ∧ { running page64 .s4 with nvmPend := some (.erase 0x40) }.inFlight 0x3F = false ∧
    { running page64 .s4 with nvmPend := some (.erase 0x40) }.inFlight 0x80 = false ∧ { running page64 .s4 with nvmPend := some (.erase 0x40) }.nvmPend = some (.erase 0x40) ∧
    { running page64 .s7 with nvmPend := some (.write 0x40) }.nvmPend = some (.write 0x40) :=
  ⟨.inl rfl, rfl, rfl, rfl, rfl⟩

theorem witness_StartCreatesTheSession :
    State.reset.receiverAt .awaitHold = true ∧ (stand page64 .termEnd).receiverAt .awaitHold = false := by decide +kernel

/-- V-FL-10, and each other constraint just missed. -/
theorem witness_BrokenConfigurationIsRefused :
    (¬ (192 = 64 ∨ (0 < 192 ∧ 192 % 128 = 0))) ∧
    [{ Config.standard with pageSize := 192 }, { Config.standard with addrWidth := 7 },
     { Config.standard with nvmSize := 0x10080 }, { Config.standard with appBase := 0x40 },
     { Config.standard with appBase := 0x7000 }, { Config.standard with appLimit := 0x8000 },
     { Config.standard with nvmSize := 0x7FC0 }, { Config.standard with appLimit := 0x6FC0 }].map Config.admitted =
      [false, false, false, false, false, false, false, false] := by decide +kernel

theorem witness_StepRunsTheWireUnit :
    (let s := { stand page64 .hdrMark with script := [.unit], rxq := [0x04, 0x55] }
     s.cfg.admitted = true ∧ s.script = [.unit] ∧ s.receiverAtMark = true ∧
       decode s.cfg .received s.rxq = .ok (.eot, [0x55])) ∧
    (let s := { stand page64 .awaitMark with script := [.unit], rxq := 0x01 :: 1 :: 254 :: (zeros ++ [0, 0, 0x04]) }
     s.receiverAtMark = true ∧ (decode s.cfg .received s.rxq).toOption = some (.soh 1 254 zeros 0 0, [0x04])) :=
  ⟨⟨by decide +kernel, rfl, by decide +kernel, rfl⟩, by decide +kernel⟩

theorem witness_StepRunsTheIssuedInstruction :
    [(stand page64 .awaitReq), stand page64 .ackSend, stand page64 .termSend, stand page64 .rejecting,
     running page64 .s3, running page64 .s6, running page64 .s8, stand page64 .ackFlush].map fetch =
      [some .crq, some .ack, some .ack, some .nak, some (.nvmErase 0), some (.nvmWrite 0), some .nvmRwwen,
       some (.commit 0 0)] ∧
    fetch { running page64 .s5 with buf := [(0, 0x02), (1, 0x03)] } = some (.nvmFill 0 0x0302) ∧
    (fetch { stand page64 .validating with woff := 128 }).isSome = true ∧
    (stand page64 .awaitReq).cfg.admitted = true ∧ (stand page64 .awaitReq).script = [] ∧
    (stand page64 .awaitReq).receiverAtMark = false ∧
    { stand page64 .ackFlush with script := [.unit] }.script = .unit :: [] :=
  ⟨by decide +kernel, by decide +kernel, rfl, by decide +kernel, rfl, rfl, rfl⟩

theorem witness_WholeInstructionIsItsFineSteps :
    page64.admitted = true ∧
    (let s := { stand page64 .hdrMark with rxq := [0x04] }
     s.script = [] ∧ fetch s = some .eot ∧ ∃ t, runInstr .eot s = .next t) ∧
    (let s := stand page64 .ackFlush
     s.script = [] ∧ fetch s = some (.commit 0 0) ∧ ∃ t, runInstr (.commit 0 0) s = .next t) :=
  ⟨by decide +kernel, ⟨rfl, rfl, exists_next (by decide +kernel)⟩, ⟨rfl, rfl, exists_next (by decide +kernel)⟩⟩

theorem witness_BlockedStepChangesNothing :
    ((stand page64 .payData).ctl.reads = true ∧ (stand page64 .payData).rxq = [] ∧ (stand page64 .payData).ppStep = .idle) ∧
    (stand page64 .termEnd).ctl = .termEnd ∧ State.reset.ctl = .awaitHold ∧
    [PpStep.s2, .s4, .s7].map (fun p => { running page64 p with nvmPend := some .foreign }.nvmBusy) = [true, true, true] :=
  ⟨⟨rfl, rfl, rfl⟩, rfl, rfl, rfl⟩

theorem witness_CrqSendsTheModeRequest : (stand page64 .awaitReq).receiverAt .awaitReq = true := rfl
theorem witness_AckAnswersAnAcceptedPacket : (stand page64 .ackSend).receiverAt .ackSend = true := rfl
theorem witness_AckEndsTheSession : (stand page64 .termSend).receiverAt .termSend = true := rfl

/-- The two ends of the range of `WOFF`, page size 256. -/
theorem witness_NakRollsTheOffsetBack :
    ∀ w ∈ [128, 256], { stand page256 .rejecting with woff := w }.receiverAt .rejecting = true ∧
      128 ≤ w ∧ w ≤ page256.bufSize := by decide +kernel

theorem witness_EotEndsTheSession :
    let s := { stand page64 .awaitMark with rxq := [0x04, 0x55], script := [.unit] }
    s.receiverAtMark = true ∧ s.cfg.admitted = true ∧ s.rxq = 0x04 :: [0x55] ∧ s.script = .unit :: [] := by decide +kernel

/-- The two markers, their neighbours, and `CAN`. -/
theorem witness_MarkerIsClassified :
    ∀ b ∈ ([0x01, 0x04, 0x00, 0x02, 0x03, 0x05, 0x18, 0xFF] : List Byte), ∀ c ∈ [Ctl.awaitMark, .hdrMark],
      let s := { stand page64 c with rxq := [b] }
      s.cfg.admitted = true ∧ s.script = [] ∧ s.receiverAtMark = true ∧ s.rxq = b :: [] := by decide +kernel

theorem witness_HeaderBytesAreDiscarded :
    ∀ c ∈ [Ctl.hdrSeq, .hdrCmp],
      let s := { stand page64 c with rxq := [0x55] }
      s.cfg.admitted = true ∧ s.script = [] ∧ s.ppStep = .idle ∧ s.rxq = 0x55 :: [] := by decide +kernel

/-- `BCNT` at 0, at 126 and at 127, in the last packet of a page of 256. -/
theorem witness_PayloadByteIsStored :
    (∀ k ∈ ([0, 126, 127] : List (BitVec 7)),
      let s := { stand page256 .payData with rxq := [0x55], bcnt := k, woff := 128 }
      s.cfg.admitted = true ∧ s.script = [] ∧ s.ppStep = .idle ∧ s.ctl = .payData ∧ s.rxq = 0x55 :: [] ∧
        s.woff + 128 ≤ s.cfg.bufSize) ∧
    (0 : BitVec 7).toNat < 127 ∧ (126 : BitVec 7).toNat < 127 ∧ (127 : BitVec 7).toNat = 127 := by decide +kernel

theorem witness_CodeBytesAreLatched :
    ∀ c ∈ [Ctl.payCrcHi, .payCrcLo],
      let s := { stand page64 c with rxq := [0xED], woff := 128 }
      s.cfg.admitted = true ∧ s.script = [] ∧ s.ppStep = .idle ∧ s.rxq = 0xED :: [] := by decide +kernel

theorem witness_ValidatingComparesTheCode :
    ∀ w ∈ [128, 256],
      let s := { stand page256 .validating with woff := w }
      s.cfg.admitted = true ∧ s.script = [] ∧ s.receiverAt .validating = true ∧ 128 ≤ s.woff ∧ s.woff ≤ s.cfg.bufSize := by
  decide +kernel

/-- V-FL-1 to V-FL-3: past, at and below the page size. -/
theorem witness_FlushCheckComparesWithThePage :
    [page64, Config.standard, page256].map (fun c =>
      let s := { stand c .ackCheck with woff := 128 }
      (s.cfg.admitted, s.script.isEmpty, s.receiverAt .ackCheck, decide (s.cfg.pageSize ≤ s.woff))) =
      [(true, true, true, true), (true, true, true, true), (true, true, true, false)] := by decide +kernel

/-- V-FL-7 and V-FL-8: the last page of the region, and the page after it. -/
theorem witness_FlushStartsOrFaultsAtTheBound :
    [0x6F80, 0x7000].map (fun a =>
      let s := { stand Config.standard .ackFlush with woff := 128, taddr := a }
      (s.cfg.admitted, s.script.isEmpty, s.receiverAt .ackFlush, decide (s.taddr + s.cfg.pageSize ≤ s.cfg.appLimit))) =
      [(true, true, true, true), (true, true, true, false)] := by decide +kernel

theorem witness_FlushAdvancesPageByPage :
    [(page64, 0x6F80, 0), (page64, 0x6FC0, 1), (Config.standard, 0x6F80, 0)].map (fun (c, a, k) =>
      let s := { stand c .ackAdv with woff := 128, taddr := a, flushK := k }
      (s.cfg.admitted, s.script.isEmpty, s.receiverAt .ackAdv, decide (s.taddr + s.cfg.pageSize ≤ s.cfg.appLimit),
        decide (s.cfg.pageSize = 64), s.flushK)) =
      [(true, true, true, true, true, 0), (true, true, true, true, true, 1), (true, true, true, true, false, 0)] := by
  decide +kernel

theorem witness_WrongCodeIsRejected :
    let s := stand Config.standard .awaitMark
    s.cfg.admitted = true ∧ s.receiverAtMark = true ∧ zeros.length = 128 ∧ s.woff + 128 ≤ s.cfg.bufSize ∧
      crc16 s.cfg zeros ≠ codeOf 0x00 0x01 := by decide +kernel

theorem witness_AcceptedPacketIsStored :
    let s := stand page256 .hdrMark
    s.cfg.admitted = true ∧ s.receiverAtMark = true ∧ zeros.length = 128 ∧ s.woff + 128 < s.cfg.pageSize ∧
      crc16 s.cfg zeros = codeOf 0x00 0x00 := by decide +kernel

/-- One page of 64 twice, one page of 128, the second packet of a page of 256; the last pages of the region. -/
theorem witness_FullBufferIsCommittedThenAcknowledged :
    ∀ p ∈ [(page64, 0, 0x6F80), (Config.standard, 0, 0x6F80), (page256, 128, 0x6F00)],
      let s := { stand p.1 .hdrMark with woff := p.2.1, taddr := p.2.2 }
      s.cfg.admitted = true ∧ s.receiverAtMark = true ∧ zeros.length = 128 ∧
      s.woff + 128 = s.cfg.nPages * s.cfg.pageSize ∧ crc16 s.cfg zeros = codeOf 0x00 0x00 ∧
      s.taddr % s.cfg.pageSize = 0 ∧ s.taddr + s.cfg.nPages * s.cfg.pageSize ≤ s.cfg.appLimit ∧ s.nvmPend = none := by
  decide +kernel

theorem witness_SingleBitErrorIsRejected :
    let s := stand page256 .hdrMark
    s.cfg.admitted = true ∧ s.receiverAtMark = true ∧ zeros.length = 128 ∧ s.woff + 128 ≤ s.cfg.bufSize ∧
      s.cfg.crcPoly.getLsbD 0 = true ∧ 127 < 128 ∧ 7 < 8 := by decide +kernel

theorem witness_RetryIsIdempotent :
    let s := stand page256 .hdrMark
    s.cfg.admitted = true ∧ Memory.wf s.buf = true ∧ s.woff + 128 ≤ s.cfg.bufSize ∧
      crc16 s.cfg zeros = codeOf 0x00 0x00 ∧ crc16 s.cfg zeros ≠ codeOf 0x00 0x01 ∧
      ∃ t, exec (.soh 1 254 zeros 0x00 0x00) s = .next t :=
  ⟨by decide +kernel, rfl, by decide +kernel, by decide +kernel, by decide +kernel, exists_next (by decide +kernel)⟩

/-- The two pages of a buffer of two, and the last page of the memory. -/
theorem witness_CommitProgramsExactlyOnePage :
    ∀ p ∈ [(0, 0), (0x7FC0, 64)],
      let s := State.resetOf page64
      s.cfg.admitted = true ∧ s.ppStep = .idle ∧ s.nvmPend = none ∧ s.cfg.isPageAddr p.1 = true ∧
        p.2 + s.cfg.pageSize ≤ s.cfg.bufSize ∧ Memory.wf s.nvm = true := by decide +kernel

theorem witness_EraseCommandStartsAnErase :
    ∀ a ∈ [0, 0x7FC0], (State.resetOf page64).nvmBusy = false ∧ page64.isPageAddr a = true := by decide +kernel
theorem witness_FillCommandStagesOneWord :
    ∀ o ∈ [0, 62], (State.resetOf page64).nvmBusy = false ∧ o % 2 = 0 ∧ o + 2 ≤ page64.pageSize := by decide +kernel
theorem witness_WriteCommandStartsAWrite :
    ∀ a ∈ [0, 0x7FC0], (State.resetOf page64).nvmBusy = false ∧ page64.isPageAddr a = true := by decide +kernel
theorem witness_RestoreCommandOpensReads : State.reset.nvmBusy = false := rfl
theorem witness_BusyControllerFaults : { State.reset with nvmPend := some .foreign }.nvmBusy = true := rfl

/-- An address inside a page, the first one past the memory; an odd offset, the first one past the page. -/
theorem witness_InvalidCommandOperandFaults :
    State.reset.nvmBusy = false ∧ (∀ a ∈ [0x40, 0x8000], ¬ (a % 128 = 0 ∧ a < 0x8000)) ∧
    ∀ o ∈ [127, 128], ¬ (o % 2 = 0 ∧ o + 2 ≤ 128) := by decide +kernel

theorem witness_CompletionGivesThePageItsBytes :
    page64.admitted = true ∧
    (running page64 .s4).cfg = page64 ∧
    { running page64 .s4 with nvmPend := some (.erase 0x40) }.nvmPend = some (.erase 0x40) ∧
    (let s := { running page64 .s7 with nvmPend := some (.write 0), nvm := (List.range 64).map fun k => (k, 0xFF) }
     s.nvmPend = some (.write 0) ∧ ∀ k, k < 64 → Memory.read s.nvm (0 + k) = some s.cfg.erasedByte) ∧
    (let s := { running page64 .s7 with nvmPend := some (.write 0), nvm := [(63, 0x00)] }
     s.nvmPend = some (.write 0) ∧ 63 < s.cfg.pageSize ∧ Memory.read s.nvm (0 + 63) ≠ some s.cfg.erasedByte) ∧
    { State.resetOf page64 with nvmPend := some .foreign }.nvmPend = some .foreign :=
  ⟨by decide +kernel, rfl, rfl, ⟨rfl, by decide +kernel⟩, by decide +kernel, rfl⟩

theorem witness_ObserverReadsStoredBytes :
    (let s := { State.resetOf page64 with nvm := [(0x7FFF, 0x41)] }
     0x7FFE + 2 ≤ s.cfg.nvmSize ∧ Memory.read s.nvm 0x7FFE = none ∧ 0x7FFF + 1 ≤ s.cfg.nvmSize ∧ s.rwwEn = true ∧ s.nvmBusy = false ∧ 0 < 1 ∧ Memory.read s.nvm (0x7FFF + 0) = some 0x41) ∧
    page64.nvmSize < 0x7FFF + 2 := by decide +kernel

theorem witness_InterruptGuardSavesAndRestores :
    ∀ p ∈ [PpStep.s1, .s9],
      (running page64 p).cfg.admitted = true ∧ (running page64 p).script = [] ∧ (running page64 p).ppStep = p := by
  decide +kernel

theorem witness_WaitStepsGoOnWhenIdle :
    ∀ p ∈ [PpStep.s2, .s4, .s7],
      (running page64 p).cfg.admitted = true ∧ (running page64 p).script = [] ∧ (running page64 p).nvmBusy = false ∧
        (running page64 p).ppStep = p := by decide +kernel

theorem witness_CommandStepsIssueTheirCommand :
    ∀ p ∈ [PpStep.s3, .s6, .s8],
      let s := { running page64 p with ppAddr := 0x6FC0 }
      s.cfg.admitted = true ∧ s.script = [] ∧ s.nvmBusy = false ∧ s.cfg.isPageAddr s.ppAddr = true ∧ s.ppStep = p := by
  decide +kernel

/-- The first and the last word of the second page of a buffer of two. -/
theorem witness_StagingTakesWordsLittleEndian :
    ∀ i ∈ [0, 31],
      let s := { running page64 .s5 with ppSrc := 64, widx := i }
      s.cfg.admitted = true ∧ s.script = [] ∧ s.ppStep = .s5 ∧ s.nvmBusy = false ∧ s.widx < s.cfg.pageWords ∧
        s.ppSrc + s.cfg.pageSize ≤ s.cfg.bufSize := by decide +kernel

theorem witness_ResidueIsZero : Config.standard.crcInit = 0 := rfl
theorem witness_CodeIsLinear : Config.standard.crcInit = 0 ∧ (ramp 0).length = (fill 0xFF).length := by decide +kernel

/-- The last page address and the last fill offset of a page, an address of all ones, a packet. -/
theorem witness_DecodeOfEncodeIsTheInstruction :
    page64.admitted = true ∧
    (∀ i ∈ [Instr.soh 1 7 zeros 0xED 0xA9, .eot, .crq, .ack, .nak, .nvmErase 0x7FC0, .nvmFill 62 0xFFFF, .nvmWrite 0x7FC0,
        .nvmRwwen], i.wellFormed page64 = true ∧ (encode page64 i).isSome = true) := by decide +kernel

theorem witness_WireBytesHaveOneMeaning :
    decode page64 .received [0x04, 0x55] = .ok (.eot, [0x55]) ∧ decode page64 .sent [0x15] = .ok (.nak, []) ∧
    Channel.received ≠ .command ∧ Channel.sent ≠ .command := ⟨rfl, rfl, by decide, by decide⟩

theorem witness_ReservedCommandsAreRefused :
    ∀ v ∈ [0, 5, 6, 7, 2 ^ 35 - 1], v < 2 ^ Config.standard.commandBits ∧ (v % 8 = 0 ∨ v % 8 = 5 ∨ v % 8 = 6 ∨ v % 8 = 7) := by
  decide +kernel

theorem witness_ResetStateIsGood : Config.standard.admitted = true ∧ page64.admitted = true ∧ page256.admitted = true := by
  decide +kernel

/-! ### Good states -/

/-- The invariant of a concrete state, its parts written out. -/
theorem inv_of_parts {s : State} (h1 : s.cfg.admitted = true) (h2 : s.memoryOk) (h3 : s.woffOk) (h4 : s.bcntOk) (h5 : s.taddrOk)
    (h6 : s.programmerOk) (h7 : s.commitOk) (h8 : s.doneOk) : s.Inv := ⟨h1, h2, h3, h4, h5, h6, h7, h8⟩

/-- The Receiver at a marker position after a session's first packet, page size 256. -/
def goodMark : State := { stand page256 .hdrMark with woff := 128, rxq := [0x04] }

theorem goodMark_inv : goodMark.Inv :=
  inv_of_parts (by decide +kernel) (by unfold State.memoryOk; decide +kernel)
    (show 128 % 128 = 0 ∧ 128 + 128 ≤ goodMark.cfg.bufSize by decide +kernel) (.inr rfl)
    (by unfold State.taddrOk; decide +kernel) ⟨.inl rfl, rfl⟩ (.inl rfl) (by unfold State.doneOk; decide +kernel)

/-- The second commit of a flush, page size 64, its erase outstanding. -/
def goodErase : State :=
  { stand page64 .ackAdv with
    woff := 128, taddr := 0x40, flushK := 1, ppStep := .s4, ppAddr := 0x40, ppSrc := 64, nvmPend := some (.erase 0x40)
    rwwEn := false, nvm := [(0x3F, 0x11), (0x7000, 0x22)], script := [.complete] }

theorem goodErase_inv : goodErase.Inv :=
  inv_of_parts (by decide +kernel) (by unfold State.memoryOk; decide +kernel)
    (show 128 = goodErase.cfg.nPages * goodErase.cfg.pageSize ∧ goodErase.flushK.toNat < goodErase.cfg.nPages by decide +kernel)
    (.inr rfl) (by unfold State.taddrOk; decide +kernel) ⟨.inr rfl, rfl, rfl⟩ (.inr ⟨rfl, rfl, rfl⟩)
    (by unfold State.doneOk; decide +kernel)

/-- A flush that has reached the end of the application region (V-FL-8). -/
def goodBound : State := { stand Config.standard .ackFlush with woff := 128, taddr := 0x7000 }

theorem goodBound_inv : goodBound.Inv :=
  inv_of_parts (by decide +kernel) (by unfold State.memoryOk; decide +kernel)
    (show 128 = goodBound.cfg.nPages * goodBound.cfg.pageSize ∧ goodBound.flushK.toNat < goodBound.cfg.nPages by decide +kernel)
    (.inr rfl) (by unfold State.taddrOk; decide +kernel) ⟨.inl rfl, rfl⟩ (.inl rfl) (by unfold State.doneOk; decide +kernel)

theorem witness_EveryStepKeepsTheInvariant :
    (goodMark.Inv ∧ ∃ t, step goodMark = .next t) ∧ (goodErase.Inv ∧ ∃ t, step goodErase = .next t) :=
  ⟨⟨goodMark_inv, exists_next (by decide +kernel)⟩, ⟨goodErase_inv, exists_next (by decide +kernel)⟩⟩

theorem witness_GoodStatesStopOnlyAtTheRegionBound :
    goodBound.Inv ∧ step goodBound = .fault (.commitOutsideAppRegion 0x7000) :=
  ⟨goodBound_inv, eq_fault (by decide +kernel)⟩

theorem witness_BootRegionIsNeverWritten :
    goodErase.Inv ∧ (∃ t, step goodErase = .next t) ∧ goodErase.cfg.appLimit ≤ 0x7000 :=
  ⟨goodErase_inv, exists_next (by decide +kernel), by decide +kernel⟩

/-- The acknowledge after a flush, page size 64. -/
def goodSend64 : State := stand page64 .ackSend

theorem goodSend64_inv : goodSend64.Inv :=
  inv_of_parts (by decide +kernel) (by unfold State.memoryOk; decide +kernel)
    (show 0 % 128 = 0 ∧ 0 + 128 ≤ goodSend64.cfg.bufSize by decide +kernel) (.inr rfl)
    (by unfold State.taddrOk; decide +kernel) ⟨.inl rfl, rfl⟩ (.inl rfl) (by unfold State.doneOk; decide +kernel)

/-- The second packet of a page rejected, page size 256. -/
def goodReject256 : State := { stand page256 .rejecting with woff := 256 }

theorem goodReject256_inv : goodReject256.Inv :=
  inv_of_parts (by decide +kernel) (by unfold State.memoryOk; decide +kernel)
    (show 256 % 128 = 0 ∧ 128 ≤ 256 ∧ 256 ≤ goodReject256.cfg.bufSize by decide +kernel) (.inr rfl)
    (by unfold State.taddrOk; decide +kernel) ⟨.inl rfl, rfl⟩ (.inl rfl) (by unfold State.doneOk; decide +kernel)

/-- A page of 64, where `WOFF` is 0, and the last packet of a page of 256, where it is at its bound. -/
theorem witness_OffsetAtAMarkerIsAPacketBoundary :
    (goodSend64.Inv ∧ ∃ t, step goodSend64 = .next t ∧ t.ctl.atMark = true ∧ t.cfg.pageSize = 64) ∧
    (goodReject256.Inv ∧ ∃ t, step goodReject256 = .next t ∧ t.ctl.atMark = true ∧ t.cfg.pageSize ≠ 64) :=
  ⟨⟨goodSend64_inv, _, rfl, rfl, rfl⟩, ⟨goodReject256_inv, _, rfl, rfl, by decide +kernel⟩⟩

/-- Half a packet received, page size 64. -/
def goodPayload : State :=
  { stand page64 .payData with bcnt := 2, rxq := [0x55], buf := [(0, 0x10), (1, 0x11)] }

theorem goodPayload_inv : goodPayload.Inv :=
  inv_of_parts (by decide +kernel) (by unfold State.memoryOk; decide +kernel)
    (show 0 % 128 = 0 ∧ 0 + 128 ≤ goodPayload.cfg.bufSize by decide +kernel) (.inl rfl)
    (by unfold State.taddrOk; decide +kernel) ⟨.inl rfl, rfl⟩ (.inl rfl) (by unfold State.doneOk; decide +kernel)

theorem witness_BufferedBytesAreKnown :
    goodPayload.Inv ∧ goodPayload.bufKnown ∧ ∃ t, step goodPayload = .next t :=
  ⟨goodPayload_inv, show ∀ i, i < 2 → (Memory.read goodPayload.buf i).isSome = true by decide +kernel,
    exists_next (by decide +kernel)⟩

/-- Every move: the block's fine step that sends and that reads, its whole `EOT`, the sender's two, a reset, and the five others. -/
theorem witness_OutputIsOnlyTheThreeSymbols :
    [goodSend64, goodMark, { goodMark with script := [.unit] }, { goodMark with script := [.send 0x55] },
     { goodMark with script := [.take], txq := [0x43, 0x06] }, { goodMark with script := [.reset ⟨false, false, [0x07], [], 0⟩] },
     { goodMark with script := [.start] }, { goodMark with script := [.readDone] }, { goodMark with script := [.complete] },
     { goodMark with script := [.irq] }, { goodMark with script := [.takeIrq] }].map
        (fun s => (s.nextEvent, (stateOf (step s)).map fun t => (t.rxq, t.txq))) =
      [(.rcv, some ([], [0x06])), (.rcv, some ([], [])), (.unit, some ([], [0x06])), (.send 0x55, some ([0x04, 0x55], [])),
       (.take, some ([0x04], [0x06])), (.reset ⟨false, false, [0x07], [], 0⟩, some ([0x07], [])), (.start, some ([0x04], [])),
       (.readDone, some ([0x04], [])), (.complete, some ([0x04], [])), (.irq, some ([0x04], [])),
       (.takeIrq, some ([0x04], []))] := by decide +kernel

theorem witness_ConfigurationNeverChanges : ∃ t, step goodErase = .next t := exists_next (by decide +kernel)

theorem witness_OnlyPayloadBytesWriteTheBuffer :
    let s := { stand page64 .payData with rxq := [0x55] }
    (∃ t, step s = .next t) ∧ s.nextEvent = .rcv ∧ s.receiverAt .payData = true :=
  ⟨exists_next (by decide +kernel), rfl, rfl⟩

theorem witness_MemoryChangesOnlyAtCompletion :
    let s := running page64 .s5
    (∃ t, step s = .next t) ∧ s.nextEvent = .rcv ∧ s.ppStep = .s5 :=
  ⟨⟨_, rfl⟩, rfl, rfl⟩

/-- `DONE` set by the final acknowledge, cleared by a reset. -/
theorem witness_DoneIsSetOnlyByTheFinalAck :
    ((stand page64 .termSend).done = false ∧ (stateOf (step (stand page64 .termSend))).map (·.done) = some true) ∧
    (let s := { stand page64 .termEnd with done := true, script := [.reset ⟨false, false, [], [], 0⟩] }
     s.done = true ∧ ∃ t, step s = .next t ∧ t.done = false) :=
  ⟨by decide +kernel, rfl, _, rfl, rfl⟩

theorem witness_ReceiverWaitsForTheCommit :
    (running page64 .s3).ppStep ≠ .idle ∧ ∃ t, runEvent .rcv (running page64 .s3) = .next t :=
  ⟨by decide, exists_next (by decide +kernel)⟩

theorem witness_InterruptRequestsAreHeldOff :
    (∃ t, runEvent .rcv (running page64 .s3) = .next t) ∧
    (∃ t, runEvent .unit { goodMark with irqPending := 1 } = .next t) ∧
    { State.reset with irqPending := 1 }.ie = false ∧
    ({ State.reset with ie := true, irqPending := 1 }.ie = true ∧
      0 < { State.reset with ie := true, irqPending := 1 }.irqPending) :=
  ⟨exists_next (by decide +kernel), exists_next (by decide +kernel), rfl, rfl, by decide⟩

end Sys2Proof.Tests
end

section
/-! SUPPORT. What one fine step can change: the fields the Receiver's steps, the Page Programmer's steps and the other agents' moves
leave as they are, each said once for every field. -/

namespace Sys2Proof.Machine

/-! ## A step is one move -/

/-- A step answers a next state exactly when the configuration is admitted and the next move, taken from the script, does. -/
theorem step_eq_next {s t : State} :
    step s = .next t ↔ s.cfg.admitted = true ∧ runEvent s.nextEvent s.popScript = .next t := by
  unfold step agentStep
  cases s.cfg.admitted <;> simp

/-! ## The Receiver's step -/

/-- `s` with everything a step of the Receiver may write taken from `t`: its own registers, the invocation of a commit (R130), `BUF`
and the two streams. -/
def State.withReceiverOf (s t : State) : State :=
  { s with ctl := t.ctl, bcnt := t.bcnt, woff := t.woff, taddr := t.taddr, rxHi := t.rxHi, rxLo := t.rxLo, crcv := t.crcv
           flushK := t.flushK, ppStep := t.ppStep, ppAddr := t.ppAddr, ppSrc := t.ppSrc, done := t.done
           buf := t.buf, rxq := t.rxq, txq := t.txq }

theorem State.memory_of_withReceiverOf {s t : State} (h : t = s.withReceiverOf t) :
    t.nvm = s.nvm ∧ t.nvmDraw = s.nvmDraw ∧ t.pwb = s.pwb := by
  rw [h]; exact ⟨rfl, rfl, rfl⟩

theorem State.marker_frame (s : State) (b : Byte) : s.marker b = s.withReceiverOf (s.marker b) := by
  unfold State.marker; split_ifs <;> rfl

theorem State.judge_frame (s : State) (c : Word) :
    State.judge { s with crcv := c } = s.withReceiverOf (State.judge { s with crcv := c }) := by
  unfold State.judge; split_ifs <;> rfl

theorem State.flushCheck_frame (s : State) : s.flushCheck = s.withReceiverOf s.flushCheck := by
  unfold State.flushCheck; split_ifs <;> rfl

theorem State.flushAdvance_frame (s : State) : s.flushAdvance = s.withReceiverOf s.flushAdvance := by
  unfold State.flushAdvance; split_ifs <;> rfl

theorem State.bootStart_frame (s : State) : s.bootStart = s.withReceiverOf s.bootStart := by
  unfold State.bootStart; split_ifs <;> rfl

theorem execCrq_frame {s t : State} (h : execCrq s = .next t) : t = s.withReceiverOf t := by
  unfold execCrq at h
  split_ifs at h
  cases h; rfl

theorem execAck_frame {s t : State} (h : execAck s = .next t) : t = s.withReceiverOf t := by
  unfold execAck at h
  split_ifs at h <;> cases h <;> rfl

theorem execNak_frame {s t : State} (h : execNak s = .next t) : t = s.withReceiverOf t := by
  unfold execNak at h
  split_ifs at h
  cases h; rfl

theorem payloadByte_frame {b : Byte} {s t : State} (h : payloadByte b s = .next t) : t = s.withReceiverOf t := by
  obtain ⟨u, hu, ht⟩ := andThen_eq_next.1 h
  obtain ⟨-, rfl⟩ := bufWrite_eq_next.1 hu
  obtain rfl := next_eq_next.1 ht
  split_ifs <;> rfl

theorem rcvByte_frame {b : Byte} {s t : State} (h : rcvByte b s = .next t) : t = s.withReceiverOf t := by
  unfold rcvByte at h
  cases hc : s.ctl <;> simp only [hc] at h
  case awaitMark | hdrMark => obtain rfl := next_eq_next.1 h; exact s.marker_frame b
  case payData => exact payloadByte_frame h
  case hdrSeq | hdrCmp | payCrcHi | payCrcLo => cases h; rfl
  all_goals cases h

theorem rcvRead_frame {s t : State} (h : rcvRead s = .next t) : t = s.withReceiverOf t := by
  unfold rcvRead at h
  split at h
  · cases h; rfl
  · exact rcvByte_frame (s := s.dropRx 1) h

theorem validate_frame {s t : State} (h : validate s = .next t) : t = s.withReceiverOf t := by
  obtain ⟨-, rfl⟩ := validate_eq_next.1 h
  exact s.judge_frame _

theorem flushStart_frame {s t : State} (h : flushStart s = .next t) : t = s.withReceiverOf t := by
  obtain ⟨u, hu, ht⟩ := andThen_eq_next.1 h
  obtain ⟨-, rfl⟩ := flushGuard_eq_next.1 hu
  cases ht; rfl

/-- A step of the Receiver writes nothing but its own registers, a commit's invocation, `BUF` and the streams. -/
theorem receiverStep_frame {s t : State} (h : receiverStep s = .next t) : t = s.withReceiverOf t := by
  unfold receiverStep at h
  cases hc : s.ctl <;> simp only [hc] at h
  case awaitHold | termEnd => cases h; rfl
  case awaitReq => exact execCrq_frame h
  case awaitMark | hdrMark | hdrSeq | hdrCmp | payData | payCrcHi | payCrcLo => exact rcvRead_frame h
  case validating => exact validate_frame h
  case ackCheck => obtain rfl := next_eq_next.1 h; exact s.flushCheck_frame
  case ackFlush => exact flushStart_frame h
  case ackAdv => obtain rfl := next_eq_next.1 h; exact s.flushAdvance_frame
  case ackSend | termSend => exact execAck_frame h
  case rejecting => exact execNak_frame h

/-! ## The Page Programmer's step -/

/-- `s` with everything a step of the Page Programmer other than step 5 may write taken from `t`: its sequencing, the interrupt guard,
and what a command to the controller sets. -/
def State.withProgrammerOf (s t : State) : State :=
  { s with ppStep := t.ppStep, widx := t.widx, savedIe := t.savedIe, ie := t.ie, nvmPend := t.nvmPend, rwwEn := t.rwwEn }

theorem State.memory_of_withProgrammerOf {s t : State} (h : t = s.withProgrammerOf t) :
    t.nvm = s.nvm ∧ t.nvmDraw = s.nvmDraw ∧ t.pwb = s.pwb := by
  rw [h]; exact ⟨rfl, rfl, rfl⟩

/-- A wait step whose continuation is inside the frame is inside it. -/
theorem waitReady_frame {go : State → State} {s t : State} (hgo : go s = s.withProgrammerOf (go s))
    (h : waitReady go s = .next t) : t = s.withProgrammerOf t := by
  obtain rfl := next_eq_next.1 h
  split_ifs
  · rfl
  · exact hgo

/-- Starting an erase or a write and going on writes no memory. -/
theorem startNvmOp_ppGoto_frame {op : NvmOp} {a : Nat} {p : PpStep} {s t : State}
    (h : (andThen (startNvmOp op a s) fun u => .next (u.ppGoto p)) = .next t) : t = s.withProgrammerOf t := by
  obtain ⟨u, hu, ht⟩ := andThen_eq_next.1 h
  obtain ⟨-, -, rfl⟩ := startNvmOp_eq_next.1 hu
  cases ht; rfl

theorem ppRestoreRead_frame {s t : State} (h : ppRestoreRead s = .next t) : t = s.withProgrammerOf t := by
  obtain ⟨u, hu, ht⟩ := andThen_eq_next.1 h
  obtain ⟨-, rfl⟩ := execNvmRwwen_eq_next.1 hu
  cases ht; rfl

/-- A step of the Page Programmer is step 5, which stages one word into `PWB` (R135), or it writes no memory. -/
theorem ppStep_cases {s t : State} (h : ppStep s = .next t) :
    (s.ppStep = .s5 ∧ t = State.staged { s with pwb := Memory.write s.pwb s.widx s.stageWord }) ∨ t = s.withProgrammerOf t := by
  unfold ppStep at h
  cases hp : s.ppStep <;> simp only [hp] at h
  case s5 =>
    obtain ⟨-, -, -, ht⟩ := ppStage_eq_next.1 h
    exact .inl ⟨rfl, ht⟩
  all_goals right
  case idle | s1 | s9 => cases h; rfl
  case s2 | s4 | s7 => exact waitReady_frame rfl h
  case s3 | s6 => exact startNvmOp_ppGoto_frame h
  case s8 => exact ppRestoreRead_frame h

/-! ## The block's fine step and the other agents' moves -/

/-- The block's fine step leaves `NVM` and its draws (R40), and `PWB` unless it is step 5 (R135). -/
theorem rcvStep_memory {s t : State} (h : rcvStep s = .next t) :
    t.nvm = s.nvm ∧ t.nvmDraw = s.nvmDraw ∧ (t.pwb = s.pwb ∨ s.ppStep = .s5) := by
  by_cases hp : s.ppStep = .idle
  · rw [rcvStep_idle hp] at h
    obtain ⟨hn, hd, hw⟩ := State.memory_of_withReceiverOf (receiverStep_frame h)
    exact ⟨hn, hd, .inl hw⟩
  · rw [rcvStep_running hp] at h
    obtain ⟨h5, rfl⟩ | hf := ppStep_cases h
    · exact ⟨rfl, rfl, .inr h5⟩
    · obtain ⟨hn, hd, hw⟩ := State.memory_of_withProgrammerOf hf
      exact ⟨hn, hd, .inl hw⟩

theorem State.irqTaken_frame (s : State) : s.irqTaken = { s with irqPending := s.irqTaken.irqPending } := by
  unfold State.irqTaken; split_ifs <;> rfl

/-- Of the moves that are no whole unit, no completion and no reset, none writes `NVM` or its draws, and
only the block's step 5 writes `PWB`. -/
theorem runEvent_memory {e : Event} {s t : State} (h : runEvent e s = .next t) (hu : e ≠ .unit) (hc : e ≠ .complete)
    (hr : ∀ p, e ≠ .reset p) :
    t.nvm = s.nvm ∧ t.nvmDraw = s.nvmDraw ∧ (t.pwb = s.pwb ∨ (e = .rcv ∧ s.ppStep = .s5)) := by
  cases e with
  | rcv =>
    obtain ⟨hn, hd, hp⟩ := rcvStep_memory h
    exact ⟨hn, hd, hp.imp_right fun h5 => ⟨rfl, h5⟩⟩
  | unit => exact absurd rfl hu
  | complete => exact absurd rfl hc
  | reset p => exact absurd rfl (hr p)
  | start =>
    obtain rfl := next_eq_next.1 h
    obtain ⟨hn, hd, hw⟩ := State.memory_of_withReceiverOf s.bootStart_frame
    exact ⟨hn, hd, .inl hw⟩
  | takeIrq =>
    obtain rfl := next_eq_next.1 h
    rw [s.irqTaken_frame]
    exact ⟨rfl, rfl, .inl rfl⟩
  | readDone | send | take | irq => cases h; exact ⟨rfl, rfl, .inl rfl⟩

end Sys2Proof.Machine
end

section
/-! SUPPORT. The scope's statement about the memories, settled (R9, R28, R40). -/

namespace Sys2Proof.Machine

/-- Settles O57: the step is one move on the state without that move in its script, and no such move but the block's step 5 writes
`NVM`, its draws or `PWB`. -/
theorem memoryChangesOnlyAtCompletion : Obligations.MemoryChangesOnlyAtCompletion := by
  unfold Obligations.MemoryChangesOnlyAtCompletion
  intro s t h hu hc hr
  obtain ⟨-, hrun⟩ := step_eq_next.1 h
  exact runEvent_memory (s := s.popScript) hrun hu hc hr

end Sys2Proof.Machine
end

section
/-! SUPPORT. What good states end in: the two shapes of a good state (the Receiver at a phase, a commit at a step), and the rule by
which a sequence of operations ends well when each part does. -/

namespace Sys2Proof.Machine

/-- `o` answers a next state with `Q`, or stops at the bound of the application region of `c` (R186); it ends in no other way. -/
def Ends (c : Config) (Q : State → Prop) (o : Result) : Prop :=
  match o with
  | .next t => Q t
  | .fault r => ∃ a, r = .commitOutsideAppRegion a ∧ c.appLimit < a + c.pageSize
  | .refused _ => False

/-- A good state of the configuration `c`, whose buffered bytes are known if `k` is given. -/
structure State.Sound (c : Config) (k : Prop) (s : State) : Prop where
  cfg : s.cfg = c
  inv : s.Inv
  known : k → s.bufKnown

/-- A good state in which the Receiver stands at `ph` and may step. -/
structure State.Stands (c : Config) (k : Prop) (ph : Ctl) (s : State) : Prop extends State.Sound c k s where
  idle : s.ppStep = .idle
  phase : s.ctl = ph

/-- A good state in which the Receiver waits at `ADV` of page `f` of a flush, and the Page Programmer stands at `p`. -/
structure State.Running (c : Config) (k : Prop) (f : BitVec 2) (p : PpStep) (s : State) : Prop extends State.Sound c k s where
  phase : s.ctl = .ackAdv
  page : s.flushK = f
  programmer : s.ppStep = p

variable {c : Config} {k : Prop} {ph : Ctl} {f : BitVec 2} {p : PpStep} {s t : State} {P Q : State → Prop} {o : Result}

/-! ## Sequences -/

theorem Ends.mono (h : Ends c P o) (hPQ : ∀ t, P t → Q t) : Ends c Q o := by
  cases o with
  | next t => exact hPQ t h
  | fault r => exact h
  | refused r => exact h

theorem Ends.andThen {g : State → Result} (h : Ends c P o) (hg : ∀ t, P t → Ends c Q (g t)) : Ends c Q (andThen o g) := by
  cases o with
  | next t => exact hg t h
  | fault r => exact h
  | refused r => exact h

/-! ## What the invariant does not speak of -/

/-- `s` with everything the invariant and the known bytes do not speak of taken from `t`: the received code, `CRCV`, `SAVED_IE`, the
streams, the pending requests, the script and the draws. -/
def State.withFreeOf (s t : State) : State :=
  { s with rxHi := t.rxHi, rxLo := t.rxLo, crcv := t.crcv, savedIe := t.savedIe, rxq := t.rxq, txq := t.txq
           irqPending := t.irqPending, script := t.script, fresh := t.fresh, bufDraw := t.bufDraw, pwbDraw := t.pwbDraw }

theorem State.Sound.free (h : s.Sound c k) (ht : t = s.withFreeOf t) : t.Sound c k := by
  rw [ht]
  exact ⟨h.cfg, ⟨h.inv.admitted, h.inv.memory, h.inv.woff, h.inv.bcnt, h.inv.taddr, h.inv.programmer, h.inv.commit, h.inv.done⟩,
    h.known⟩

theorem State.Stands.free (h : s.Stands c k ph) (ht : t = s.withFreeOf t) : t.Stands c k ph :=
  ⟨h.toSound.free ht, (congrArg State.ppStep ht).trans h.idle, (congrArg State.ctl ht).trans h.phase⟩

/-! ## The Receiver at a phase -/

/-- What the phase says of `WOFF`. -/
theorem State.Stands.woff (h : s.Stands c k ph) : (s.goto ph).woffOk := by
  have hs : s.goto ph = s := by rw [← h.phase]; rfl
  rw [hs]; exact h.inv.woff

theorem State.Stands.bcnt_eq_zero (h : s.Stands c k ph) (hp : ph ≠ .payData) : s.bcnt = 0 :=
  h.inv.bcnt.resolve_left fun hc => hp (h.phase.symm.trans hc)

/-- The Receiver writes its registers: what the invariant says of them is to be shown, the rest stays. -/
theorem State.Stands.write {ph' : Ctl} (h : s.Stands c k ph) (hc : t.ctl = ph')
    (ht : t = { s with ctl := t.ctl, woff := t.woff, bcnt := t.bcnt, flushK := t.flushK, taddr := t.taddr, done := t.done })
    (hw : t.woffOk) (hb : t.bcntOk) (ha : t.taddrOk) (hd : t.doneOk) (hk : k → t.bufKnown) : t.Stands c k ph' where
  cfg := (congrArg State.cfg ht).trans h.cfg
  inv := by
    clear hc
    rw [ht] at hw hb ha hd ⊢
    exact ⟨h.inv.admitted, h.inv.memory, hw, hb, ha, h.inv.programmer, .inl h.idle, hd⟩
  known := hk
  idle := (congrArg State.ppStep ht).trans h.idle
  phase := hc

theorem State.doneOk_of_ne (h : s.Stands c k ph) (hp : ph ≠ .termEnd) (ht : t.done = s.done) (hc : t.ctl ≠ .termEnd) :
    t.doneOk := by
  have hs : ¬ s.done = true := fun hd => hp (h.phase.symm.trans (h.inv.done.1 hd))
  exact ⟨fun hd => absurd (ht.symm.trans hd) hs, fun hd => absurd hd hc⟩

theorem State.taddrOk.congr (h : s.taddrOk) (hc : t.cfg = s.cfg) (ht : t.taddr = s.taddr) (hp : t.ctl ≠ .ackAdv) :
    t.taddrOk := by
  obtain ⟨hmod, hlo, hhi, -⟩ := h
  rw [State.taddrOk, hc, ht]
  exact ⟨hmod, hlo, hhi, fun h => absurd h hp⟩

/-- A change of phase alone, other than into `ADV`, into or out of `END`, or out of a payload, needs what the new phase says of
`WOFF`. -/
theorem State.Stands.goto (h : s.Stands c k ph) (ph' : Ctl) (hw : (s.goto ph').woffOk)
    (hp : ph ≠ .termEnd ∧ ph' ≠ .termEnd ∧ ph' ≠ .ackAdv ∧ ph ≠ .payData := by decide) : (s.goto ph').Stands c k ph' :=
  h.write rfl rfl hw (.inr (h.bcnt_eq_zero hp.2.2.2)) (h.inv.taddr.congr rfl rfl hp.2.2.1)
    (State.doneOk_of_ne h hp.1 rfl hp.2.1) h.known

/-- At a marker position there is room for a packet (R36). -/
theorem State.Stands.room_of_mark (h : s.Stands c k ph) (hm : ph = .awaitMark ∨ ph = .hdrMark) :
    s.woff % 128 = 0 ∧ s.woff + 128 ≤ s.cfg.bufSize := by
  obtain rfl | rfl := hm
  · have hw : s.woff = 0 := h.woff
    have := s.cfg.bufSize_ge
    omega
  · exact h.woff

end Sys2Proof.Machine
end

section
/-! SUPPORT. The Receiver's operations from good states: each ends in a good state at its next phase (R90 to R112), the guard of a flush
alone at the bound (R105). -/

namespace Sys2Proof.Machine

variable {c : Config} {k : Prop} {ph : Ctl} {s : State}

/-! ## The symbols sent -/

theorem execCrq_ends (h : s.Stands c k .awaitReq) : Ends c (State.Stands c k .awaitMark) (execCrq s) := by
  rw [execCrq, if_pos ((s.receiverAt_iff _).2 ⟨h.idle, h.phase⟩)]
  exact (h.free (t := s.txByte symCRQ) rfl).goto .awaitMark h.woff

theorem execAck_ends_of_ackSend (h : s.Stands c k .ackSend) : Ends c (State.Stands c k .hdrMark) (execAck s) := by
  rw [execAck, if_pos ((s.receiverAt_iff _).2 ⟨h.idle, h.phase⟩)]
  exact (h.free (t := s.txByte symACK) rfl).goto .hdrMark h.woff

theorem execAck_ends_of_termSend (h : s.Stands c k .termSend) : Ends c (State.Stands c k .termEnd) (execAck s) := by
  have hn : ¬ s.receiverAt .ackSend = true := by simp [State.receiverAt_iff, h.phase]
  rw [execAck, if_neg hn, if_pos ((s.receiverAt_iff _).2 ⟨h.idle, h.phase⟩)]
  exact (h.free (t := s.txByte symACK) rfl).write rfl rfl h.woff
    (.inr (h.bcnt_eq_zero (by decide))) (h.inv.taddr.congr rfl rfl (by simp)) (by simp [State.doneOk]) h.known

theorem execNak_ends (h : s.Stands c k .rejecting) : Ends c (State.Stands c k .hdrMark) (execNak s) := by
  rw [execNak, if_pos ((s.receiverAt_iff _).2 ⟨h.idle, h.phase⟩)]
  obtain ⟨hmod, hlo, hhi⟩ : s.woff % 128 = 0 ∧ 128 ≤ s.woff ∧ s.woff ≤ s.cfg.bufSize := h.woff
  have hw : s.woffDown = s.woff - 128 := State.woffDown_eq hlo hhi
  refine (h.free (t := s.txByte symNAK) rfl).write rfl rfl ?_
    (.inr (h.bcnt_eq_zero (by decide))) (h.inv.taddr.congr rfl rfl (by simp [State.returnFromMismatch]))
    (State.doneOk_of_ne h (by decide) rfl (by simp [State.returnFromMismatch])) ?_
  · show s.woffDown % 128 = 0 ∧ s.woffDown + 128 ≤ s.cfg.bufSize
    omega
  · intro hk i hi
    have hi' : i < s.woffDown + s.bcnt.toNat := hi
    exact h.known hk i (by omega)

/-! ## The bytes received -/

theorem State.Stands.marker_soh (h : s.Stands c k ph) (hm : ph = .awaitMark ∨ ph = .hdrMark) :
    (s.goto .hdrSeq).Stands c k .hdrSeq :=
  h.goto .hdrSeq (h.room_of_mark hm) (by obtain rfl | rfl := hm <;> decide)

theorem State.Stands.marker_eot (h : s.Stands c k ph) (hm : ph = .awaitMark ∨ ph = .hdrMark) :
    (s.goto .termSend).Stands c k .termSend :=
  h.goto .termSend (h.room_of_mark hm) (by obtain rfl | rfl := hm <;> decide)

theorem rcvByte_of_mark (h : s.Stands c k ph) (hm : ph = .awaitMark ∨ ph = .hdrMark) (b : Byte) :
    rcvByte b s = .next (s.marker b) := by
  obtain rfl | rfl := hm <;> simp only [rcvByte, h.phase]

theorem rcvByte_ends_of_soh (h : s.Stands c k ph) (hm : ph = .awaitMark ∨ ph = .hdrMark) :
    Ends c (State.Stands c k .hdrSeq) (rcvByte symSOH s) := by
  rw [rcvByte_of_mark h hm]; exact h.marker_soh hm

theorem rcvByte_ends_of_eot (h : s.Stands c k ph) (hm : ph = .awaitMark ∨ ph = .hdrMark) :
    Ends c (State.Stands c k .termSend) (rcvByte symEOT s) := by
  rw [rcvByte_of_mark h hm]; exact h.marker_eot hm

theorem rcvByte_ends_of_mark (h : s.Stands c k ph) (hm : ph = .awaitMark ∨ ph = .hdrMark) (b : Byte) :
    Ends c (State.Sound c k) (rcvByte b s) := by
  rw [rcvByte_of_mark h hm, State.marker]
  split_ifs
  · exact (h.marker_soh hm).toSound
  · exact (h.marker_eot hm).toSound
  · exact h.toSound

theorem rcvByte_ends_of_hdrSeq (h : s.Stands c k .hdrSeq) (b : Byte) :
    Ends c (State.Stands c k .hdrCmp) (rcvByte b s) := by
  simp only [rcvByte, h.phase]
  exact h.goto .hdrCmp h.woff

theorem rcvByte_ends_of_hdrCmp (h : s.Stands c k .hdrCmp) (b : Byte) :
    Ends c (fun t => t.Stands c k .payData ∧ t.bcnt = 0) (rcvByte b s) := by
  simp only [rcvByte, h.phase]
  have hb : s.bcnt = 0 := h.bcnt_eq_zero (by decide)
  refine ⟨h.write rfl rfl h.woff (.inl rfl) (h.inv.taddr.congr rfl rfl (by simp))
    (State.doneOk_of_ne h (by decide) rfl (by simp)) fun hk i hi => h.known hk i ?_, rfl⟩
  rw [hb]; exact hi

/-- A byte written to `BUF` at an index it has. -/
theorem State.Stands.writeBuf (h : s.Stands c k ph) {i : Nat} (hi : i < s.cfg.bufSize) (b : Byte) :
    State.Stands c k ph { s with buf := Memory.write s.buf i b } := by
  obtain ⟨hwf, hbelow, hrest⟩ := h.inv.memory
  refine ⟨⟨h.cfg, ⟨h.inv.admitted, ?_, h.inv.woff, h.inv.bcnt, h.inv.taddr, h.inv.programmer, h.inv.commit, h.inv.done⟩, ?_⟩,
    h.idle, h.phase⟩
  · exact ⟨Memory.wf_write hwf i b, Memory.below_write hbelow hi b, hrest⟩
  · intro hk j hj
    show (Memory.read (Memory.write s.buf i b) j).isSome = true
    rw [Memory.read_write]
    split_ifs
    · rfl
    · exact h.known hk j hj

/-- `BCNT + 1` does not wrap before the 128th byte (R100). -/
theorem bcnt_succ {n : BitVec 7} (h : n ≠ 127) : (n + 1).toNat = n.toNat + 1 := by
  have hne : n.toNat ≠ 127 := fun hn => h (BitVec.eq_of_toNat_eq hn)
  have hlt : n.toNat < 128 := n.isLt
  rw [BitVec.toNat_add, Nat.mod_eq_of_lt]
  · rfl
  · show n.toNat + 1 < 128
    omega

/-- A payload byte (R99, R100): the 128th ends the payload, an earlier one is counted. -/
theorem payloadByte_ends (h : s.Stands c k .payData) (b : Byte) :
    Ends c (fun t => if s.bcnt = 127 then t.Stands c k .payCrcHi else t.Stands c k .payData ∧ t.bcnt = s.bcnt + 1)
      (payloadByte b s) := by
  obtain ⟨hmod, hroom⟩ : s.woff % 128 = 0 ∧ s.woff + 128 ≤ s.cfg.bufSize := h.woff
  have hlt : s.bcnt.toNat < 128 := s.bcnt.isLt
  have hidx : s.woff + s.bcnt.toNat < s.cfg.bufSize := by omega
  have hu := h.writeBuf hidx b
  have hknown : k → ∀ i, i < s.woff + s.bcnt.toNat + 1 →
      (Memory.read (Memory.write s.buf (s.woff + s.bcnt.toNat) b) i).isSome = true := by
    intro hk i hi
    rw [Memory.read_write]
    split_ifs with heq
    · rfl
    · exact h.known hk i (by omega)
  rw [payloadByte, bufWrite, if_pos ((Config.inBuf_iff _ _ _).2 hidx), andThen_next]
  show (if s.bcnt = 127 then _ else _)
  by_cases hb : s.bcnt = 127
  · have hup : s.woffUp = s.woff + 128 := State.woffUp_eq hroom
    rw [if_pos hb, if_pos hb]
    refine hu.write rfl rfl ?_ (.inr rfl) (h.inv.taddr.congr rfl rfl (by simp))
      (State.doneOk_of_ne h (by decide) rfl (by simp)) fun hk i hi => hknown hk i ?_
    · show s.woffUp % 128 = 0 ∧ 128 ≤ s.woffUp ∧ s.woffUp ≤ s.cfg.bufSize
      omega
    · have hi' : i < s.woffUp + 0 := hi
      have h127 : s.bcnt.toNat = 127 := by rw [hb]; rfl
      omega
  · have hsucc := bcnt_succ hb
    rw [if_neg hb, if_neg hb]
    refine ⟨hu.write h.phase rfl h.inv.woff (.inl h.phase) h.inv.taddr h.inv.done fun hk i hi => hknown hk i ?_, rfl⟩
    have hi' : i < s.woff + (s.bcnt + 1).toNat := hi
    omega

theorem rcvByte_of_payData (hc : s.ctl = .payData) (b : Byte) : rcvByte b s = payloadByte b s := by
  simp only [rcvByte, hc]

theorem rcvByte_ends_of_payData (h : s.Stands c k .payData) (b : Byte) : Ends c (State.Sound c k) (rcvByte b s) := by
  rw [rcvByte_of_payData h.phase]
  refine (payloadByte_ends h b).mono fun t ht => ?_
  split_ifs at ht
  · exact ht.toSound
  · exact ht.1.toSound

theorem rcvByte_ends_of_payCrcHi (h : s.Stands c k .payCrcHi) (b : Byte) :
    Ends c (State.Stands c k .payCrcLo) (rcvByte b s) := by
  simp only [rcvByte, h.phase]
  exact (h.free (t := { s with rxHi := b }) rfl).goto .payCrcLo h.woff

theorem rcvByte_ends_of_payCrcLo (h : s.Stands c k .payCrcLo) (b : Byte) :
    Ends c (State.Stands c k .validating) (rcvByte b s) := by
  simp only [rcvByte, h.phase]
  exact (h.free (t := { s with rxLo := b }) rfl).goto .validating h.woff

/-- A reading phase without a byte waits; with one it takes it. -/
theorem rcvRead_ends (h : s.Stands c k ph) (hb : ∀ b t, t.Stands c k ph → Ends c (State.Sound c k) (rcvByte b t)) :
    Ends c (State.Sound c k) (rcvRead s) := by
  unfold rcvRead
  split
  · exact h.toSound
  · next b _ _ => exact hb b _ (h.free (t := s.dropRx 1) rfl)

/-! ## Validating, acknowledging, and the flush -/

theorem State.spanInBuf_of (hlo : 128 ≤ s.woff) (hhi : s.woff ≤ s.cfg.bufSize) : s.spanInBuf = true := by
  simp [State.spanInBuf, blockSize, Config.inBuf, hlo, hhi]

theorem validate_ends (h : s.Stands c k .validating) :
    Ends c (fun t => t.Stands c k .ackCheck ∨ t.Stands c k .rejecting) (validate s) := by
  obtain ⟨-, hlo, hhi⟩ : s.woff % 128 = 0 ∧ 128 ≤ s.woff ∧ s.woff ≤ s.cfg.bufSize := h.woff
  rw [validate_eq_next.2 ⟨State.spanInBuf_of hlo hhi, rfl⟩, State.judge]
  have hu := h.free (t := { s with crcv := crc16 s.cfg s.validSpan }) rfl
  split_ifs
  · exact .inl (hu.goto .ackCheck hu.woff)
  · exact .inr (hu.goto .rejecting hu.woff)

/-- The check of R104: a full buffer is flushed from its first page, otherwise there is room for the next packet. -/
theorem State.Stands.flushCheck (h : s.Stands c k .ackCheck) :
    (s.flushCheck.Stands c k .ackFlush ∧ s.flushCheck.flushK = 0) ∨ s.flushCheck.Stands c k .ackSend := by
  obtain ⟨hmod, hlo, hhi⟩ : s.woff % 128 = 0 ∧ 128 ≤ s.woff ∧ s.woff ≤ s.cfg.bufSize := h.woff
  have hbuf : s.cfg.bufSize = max s.cfg.pageSize 128 := rfl
  have hpage := Config.pageSize_cases h.inv.admitted
  unfold State.flushCheck
  split_ifs with hfull
  · left
    refine ⟨h.write rfl rfl ?_ (.inr (h.bcnt_eq_zero (by decide))) (h.inv.taddr.congr rfl rfl (by simp))
      (State.doneOk_of_ne h (by decide) rfl (by simp)) h.known, rfl⟩
    show s.woff = s.cfg.nPages * s.cfg.pageSize ∧ 0 < s.cfg.nPages
    rw [Config.nPages_mul h.inv.admitted]
    exact ⟨by omega, s.cfg.nPages_pos⟩
  · right
    refine h.goto .ackSend ?_
    show s.woff % 128 = 0 ∧ s.woff + 128 ≤ s.cfg.bufSize
    omega

/-- The guard of a flush: on to `ADV` inside the region, or the fault at its bound. -/
theorem flushGuard_ends (h : s.Stands c k .ackFlush) :
    Ends c (fun t => t.Stands c k .ackAdv ∧ t.flushK = s.flushK) (flushGuard s) := by
  obtain ⟨hmod, hlo, hhi, -⟩ := h.inv.taddr
  unfold flushGuard
  split_ifs with hb
  · exact ⟨s.taddr, rfl, h.cfg ▸ hb⟩
  · exact ⟨h.write rfl rfl h.woff (.inr (h.bcnt_eq_zero (by decide))) ⟨hmod, hlo, hhi, fun _ => not_lt.1 hb⟩
      (State.doneOk_of_ne h (by decide) rfl (by simp)) h.known, rfl⟩

/-- The advance after a commit (R106): with the last page of the flush on to the acknowledge, otherwise to the next page. -/
theorem State.Stands.flushAdvance (h : s.Stands c k .ackAdv) :
    if s.flushK.toNat + 1 = c.nPages then s.flushAdvance.Stands c k .ackSend
    else s.flushAdvance.Stands c k .ackFlush ∧ s.flushAdvance.flushK.toNat = s.flushK.toNat + 1 := by
  obtain rfl := h.cfg
  obtain ⟨hw, hlt⟩ : s.woff = s.cfg.nPages * s.cfg.pageSize ∧ s.flushK.toNat < s.cfg.nPages := h.woff
  obtain ⟨hmod, hlo, -, hpage⟩ := h.inv.taddr
  have hin := hpage h.phase
  have hsucc := flushK_succ s.cfg.nPages_le hlt
  have hb : s.bcnt = 0 := h.bcnt_eq_zero (by decide)
  have hnext : s.taddrNext % s.cfg.pageSize = 0 ∧ s.cfg.appBase ≤ s.taddrNext ∧ s.taddrNext ≤ s.cfg.appLimit := by
    rw [State.taddrNext_eq h.inv.admitted hin, Nat.add_mod_right]
    omega
  obtain ⟨hmod', hlo', hhi'⟩ := hnext
  unfold State.flushAdvance
  rw [hsucc]
  split_ifs with hlast
  · refine h.write rfl rfl ?_ (.inr hb) ⟨hmod', hlo', hhi', by simp⟩ (State.doneOk_of_ne h (by decide) rfl (by simp)) ?_
    · exact ⟨rfl, (Nat.zero_add 128).symm ▸ s.cfg.bufSize_ge⟩
    · intro hk i hi
      have hi' : i < 0 + s.bcnt.toNat := hi
      exact h.known hk i (by omega)
  · refine ⟨h.write rfl rfl ⟨hw, ?_⟩ (.inr hb) ⟨hmod', hlo', hhi', by simp⟩ (State.doneOk_of_ne h (by decide) rfl (by simp))
      h.known, hsucc⟩
    show (s.flushK + 1).toNat < s.cfg.nPages
    omega

end Sys2Proof.Machine
end

section
/-! SUPPORT. The Page Programmer's steps and the controller's completion from good states (R131 to R139, R156), and a whole commit with
its completions (R141). -/

namespace Sys2Proof.Machine

variable {c : Config} {k : Prop} {f : BitVec 2} {p : PpStep} {s t : State} {Q : State → Prop}

/-! ## The controller -/

/-- What is outstanding of the block's own works on the page `TADDR` (R105), which lies in the application region (R44). -/
theorem State.Inv.pend_page (h : s.Inv) {a : Nat} (ha : s.nvmPend.bind NvmOp.page = some a) :
    s.cfg.appBase ≤ a ∧ a + s.cfg.pageSize ≤ s.cfg.appLimit := by
  obtain ⟨-, hlo, -, hpage⟩ := h.taddr
  have hp := h.programmer
  have hrun : ∀ q, s.ppStep = q → q ≠ .idle → s.ctl = .ackAdv ∧ s.ppAddr = s.taddr := fun q hq hne =>
    (h.commit.resolve_left fun hi => hne (hq.symm.trans hi)).imp_right And.left
  unfold State.programmerOk State.noOwnOp at hp
  cases hq : s.ppStep <;> simp only [hq] at hp
  case idle | s1 | s2 => obtain ⟨hn | hn, -⟩ := hp <;> simp [hn, NvmOp.page] at ha
  case s3 | s5 | s6 | s8 | s9 => simp [hp.1] at ha
  case s4 | s7 =>
    obtain ⟨hc, haddr⟩ := hrun _ hq (by decide)
    obtain ⟨hn | hn, -⟩ := hp <;> simp [hn, NvmOp.page] at ha
    subst ha
    rw [haddr]
    exact ⟨hlo, hpage hc⟩

theorem State.Inv.pend_page_fits (h : s.Inv) {a : Nat} (ha : s.nvmPend.bind NvmOp.page = some a) :
    a + s.cfg.pageSize ≤ s.cfg.nvmSize :=
  (h.pend_page ha).2.trans (Config.appLimit_lt h.admitted).le

/-- The draws after a page that the memory has became unspecified. -/
theorem State.Inv.redrawPage (h : s.Inv) {a : Nat} (ha : a + s.cfg.pageSize ≤ s.cfg.nvmSize) :
    Memory.wf (s.redrawPage a) = true ∧ Memory.below s.cfg.nvmSize (s.redrawPage a) = true := by
  obtain ⟨-, -, -, -, -, -, hwf, hbelow⟩ := h.memory
  exact ⟨Memory.wf_writeAll hwf _ _, Memory.below_writeAll hbelow (by simpa using ha)⟩

theorem State.Inv.memoryOk_nvmcComplete (h : s.Inv) : s.nvmcComplete.memoryOk := by
  obtain ⟨hbw, hbb, hpw, hpb, hnw, hnb, hdw, hdb⟩ := h.memory
  unfold State.nvmcComplete
  split
  · exact h.memory
  · exact h.memory
  · next a hop =>
    have ha := h.pend_page_fits (a := a) (by simp [hop, NvmOp.page])
    exact ⟨hbw, hbb, hpw, hpb, Memory.wf_writeAll hnw _ _, Memory.below_writeAll hnb (by simpa using ha), hdw, hdb⟩
  · next a hop =>
    have ha := h.pend_page_fits (a := a) (by simp [hop, NvmOp.page])
    have hn : Memory.wf (s.nvmAfterWrite a) = true ∧ Memory.below s.cfg.nvmSize (s.nvmAfterWrite a) = true := by
      unfold State.nvmAfterWrite
      split_ifs
      · have hlen : s.pwbBytes.length = s.cfg.pageSize := s.pwbBytes_length.trans (Config.pageWords_mul h.admitted)
        exact ⟨Memory.wf_writeAll hnw _ _, Memory.below_writeAll hnb (by omega)⟩
      · exact ⟨Memory.wf_forget hnw _ _, Memory.below_forget hnb _ _⟩
    have hd : Memory.wf (s.nvmDrawAfterWrite a) = true ∧ Memory.below s.cfg.nvmSize (s.nvmDrawAfterWrite a) = true := by
      unfold State.nvmDrawAfterWrite
      split_ifs
      · exact ⟨hdw, hdb⟩
      · exact h.redrawPage ha
    exact ⟨hbw, hbb, rfl, rfl, hn.1, hn.2, hd.1, hd.2⟩

/-- Nothing outstanding suits every step that something outstanding suits. -/
theorem State.programmerOk.of_nvmPend_none (h : s.programmerOk)
    (ht : t = { s with nvm := t.nvm, nvmDraw := t.nvmDraw, pwb := t.pwb, pwbDraw := t.pwbDraw, fresh := t.fresh, nvmPend := none }) :
    t.programmerOk := by
  rw [ht]
  unfold State.programmerOk State.noOwnOp at h ⊢
  cases hq : s.ppStep <;> simp only [hq] at h ⊢
  case idle | s1 | s2 | s4 | s7 => exact ⟨.inl trivial, h.2⟩
  all_goals exact ⟨trivial, h.2⟩

theorem State.Sound.nvmcComplete (h : s.Sound c k) : s.nvmcComplete.Sound c k := by
  have hm := h.inv.memoryOk_nvmcComplete
  have hp := h.inv.programmer.of_nvmPend_none s.nvmcComplete_frame
  rw [s.nvmcComplete_frame] at hm hp ⊢
  exact ⟨h.cfg, ⟨h.inv.admitted, hm, h.inv.woff, h.inv.bcnt, h.inv.taddr, hp, h.inv.commit, h.inv.done⟩, h.known⟩

/-! ## A commit at a step -/

/-- What the step says of the controller, `IE` and `RWW_EN`. -/
theorem State.Running.programmerOk (h : s.Running c k f p) : (s.ppGoto p).programmerOk := by
  have hs : s.ppGoto p = s := by rw [← h.programmer]; rfl
  rw [hs]; exact h.inv.programmer

theorem State.Running.commit (h : s.Running c k f p) (hp : p ≠ .idle) : s.ppAddr = s.taddr ∧ s.ppSrc = s.flushSrc :=
  (h.inv.commit.resolve_left fun hi => hp (h.programmer.symm.trans hi)).2

/-- The page of a running commit is a page of the memory. -/
theorem State.Running.isPageAddr (h : s.Running c k f p) (hp : p ≠ .idle) : s.cfg.isPageAddr s.ppAddr = true := by
  obtain ⟨hmod, -, -, hpage⟩ := h.inv.taddr
  rw [(h.commit hp).1]
  exact Config.isPageAddr_of_region h.inv.admitted hmod (hpage h.phase)

/-- A running commit writes what its steps write: what the next step says of it is to be shown, the rest stays. -/
theorem State.Running.write {q : PpStep} (h : s.Running c k f p) (hp : p ≠ .idle) (hq : t.ppStep = q)
    (ht : t = s.withProgrammerOf t) (hr : t.programmerOk) : t.Running c k f q := by
  rw [ht] at hr hq ⊢
  exact ⟨⟨h.cfg, ⟨h.inv.admitted, h.inv.memory, h.inv.woff, h.inv.bcnt, h.inv.taddr, hr, .inr ⟨h.phase, h.commit hp⟩, h.inv.done⟩,
    h.known⟩, h.phase, h.page, hq⟩

/-- A word staged at an index the page write buffer has. -/
theorem State.Running.writePwb (h : s.Running c k f p) {i : Nat} (hi : i < s.cfg.pageWords) (w : Word) :
    State.Running c k f p { s with pwb := Memory.write s.pwb i w } := by
  obtain ⟨hbw, hbb, hpw, hpb, hrest⟩ := h.inv.memory
  exact ⟨⟨h.cfg, ⟨h.inv.admitted, ⟨hbw, hbb, Memory.wf_write hpw i w, Memory.below_write hpb hi w, hrest⟩, h.inv.woff, h.inv.bcnt,
    h.inv.taddr, h.inv.programmer, h.inv.commit, h.inv.done⟩, h.known⟩, h.phase, h.page, h.programmer⟩

theorem State.Running.nvmcComplete (h : s.Running c k f p) : s.nvmcComplete.Running c k f p := by
  have hc := h.toSound.nvmcComplete
  rw [s.nvmcComplete_frame] at hc ⊢
  exact ⟨hc, h.phase, h.page, h.programmer⟩

theorem State.nvmPend_eq_none (h : s.nvmBusy = false) : s.nvmPend = none := by
  simpa [State.nvmBusy] using h

theorem State.nvmBusy_eq_false (h : s.nvmPend = none) : s.nvmBusy = false := by
  simp [State.nvmBusy, h]

/-- The invocation of a commit (R130), on the page `TADDR` and its slice of `BUF` (R105). -/
theorem State.Stands.ppInvoke (h : s.Stands c k .ackAdv) : (s.ppInvoke s.taddr s.flushSrc).Running c k s.flushK .s1 := by
  have hp := h.inv.programmer
  rw [State.programmerOk, h.idle] at hp
  exact ⟨⟨h.cfg, ⟨h.inv.admitted, h.inv.memory, h.inv.woff, h.inv.bcnt, h.inv.taddr, hp, .inr ⟨h.phase, rfl, rfl⟩, h.inv.done⟩,
    h.known⟩, h.phase, rfl, rfl⟩

/-- An erase or a write of the commit's page is accepted while nothing is outstanding. -/
theorem State.Running.startNvmOp (h : s.Running c k f p) (hp : p ≠ .idle) (hpend : s.nvmPend = none) (op : NvmOp) :
    startNvmOp op s.ppAddr s = .next { s with rwwEn := false, nvmPend := some op } :=
  startNvmOp_eq_next.2 ⟨State.nvmBusy_eq_false hpend, h.isPageAddr hp, rfl⟩

/-! ## The nine steps -/

theorem ppSuspend_ends (h : s.Running c k f .s1) : Ends c (State.Running c k f .s2) (ppSuspend s) := by
  obtain ⟨hown, hreads⟩ := h.programmerOk
  exact h.write (by decide) rfl rfl ⟨hown, hreads, rfl⟩

/-- A wait ends where its continuation does, or goes on waiting. -/
theorem waitReady_ends {go : State → State} (h : s.Sound c k) (hgo : s.nvmBusy = false → (go s).Sound c k) :
    Ends c (State.Sound c k) (waitReady go s) := by
  rw [waitReady_eq]
  cases hb : s.nvmBusy
  · exact hgo hb
  · exact h

theorem waitReady_idle {go : State → State} (hb : s.nvmBusy = false) : waitReady go s = .next (go s) := by
  simp [waitReady_eq, hb]

theorem State.Running.afterWaitController (h : s.Running c k f .s2) (hb : s.nvmBusy = false) :
    (s.ppGoto .s3).Running c k f .s3 := by
  obtain ⟨-, hreads, hie⟩ := h.programmerOk
  exact h.write (by decide) rfl rfl ⟨State.nvmPend_eq_none hb, hreads, hie⟩

theorem ppErase_ends (h : s.Running c k f .s3) : Ends c (State.Running c k f .s4) (ppErase s) := by
  obtain ⟨hpend, -, hie⟩ := h.programmerOk
  rw [ppErase, execNvmErase, h.startNvmOp (by decide) hpend]
  exact h.write (by decide) rfl rfl ⟨.inr rfl, rfl, hie⟩

theorem State.Running.afterWaitErase (h : s.Running c k f .s4) (hb : s.nvmBusy = false) :
    State.Running c k f .s5 { s with widx := 0, ppStep := .s5 } := by
  obtain ⟨-, hreads, hie⟩ := h.programmerOk
  have hwords := Config.pageWords_mul h.inv.admitted
  have hpage := Config.pageSize_cases h.inv.admitted
  exact h.write (by decide) rfl rfl ⟨State.nvmPend_eq_none hb, hreads, hie, show 0 < s.cfg.pageWords by omega⟩

/-- Step 5 stages one word, and goes on to step 6 with the last one. -/
theorem ppStage_ends (h : s.Running c k f .s5) :
    Ends c (fun t => t.Running c k f (if s.widx + 1 = c.pageWords then .s6 else .s5) ∧ t.widx = s.widx + 1) (ppStage s) := by
  obtain rfl := h.cfg
  obtain ⟨hpend, hreads, hie, hlt⟩ := h.programmerOk
  replace hlt : s.widx < s.cfg.pageWords := hlt
  have hwords := Config.pageWords_mul h.inv.admitted
  have hsrc : s.stageSrc + 2 ≤ s.cfg.bufSize := by
    obtain ⟨-, hflush⟩ : s.woff = s.cfg.nPages * s.cfg.pageSize ∧ s.flushK.toNat < s.cfg.nPages := by
      have hw := h.inv.woff
      rwa [State.woffOk, h.phase] at hw
    calc s.stageSrc + 2 = s.flushK.toNat * s.cfg.pageSize + (2 * s.widx + 2) := by
          rw [State.stageSrc, (h.commit (by decide)).2, State.flushSrc, Nat.add_assoc]
      _ ≤ s.flushK.toNat * s.cfg.pageSize + s.cfg.pageSize := by omega
      _ = (s.flushK.toNat + 1) * s.cfg.pageSize := (Nat.succ_mul _ _).symm
      _ ≤ s.cfg.nPages * s.cfg.pageSize := Nat.mul_le_mul_right _ hflush
      _ = s.cfg.bufSize := Config.nPages_mul h.inv.admitted
  have hoff : s.cfg.isFillOffset (2 * s.widx) = true := (Config.isFillOffset_iff _ _).2 ⟨by omega, by omega⟩
  rw [ppStage_eq_next.2 ⟨(Config.inBuf_iff _ _ _).2 hsrc, State.nvmBusy_eq_false hpend, hoff, rfl⟩]
  have hnext : s.widxNext = s.widx + 1 := State.widxNext_eq hlt
  refine ⟨(h.writePwb hlt s.stageWord).write (by decide) ?_ rfl ?_, hnext⟩
  · show (if s.widxNext = s.cfg.pageWords then PpStep.s6 else .s5) = _
    rw [hnext]
  · unfold State.staged
    split_ifs with hlast
    · exact ⟨hpend, hreads, hie⟩
    · replace hlast : s.widxNext ≠ s.cfg.pageWords := hlast
      exact ⟨hpend, hreads, hie, show s.widxNext < s.cfg.pageWords by omega⟩

theorem ppWrite_ends (h : s.Running c k f .s6) : Ends c (State.Running c k f .s7) (ppWrite s) := by
  obtain ⟨hpend, hreads, hie⟩ := h.programmerOk
  rw [ppWrite, execNvmWrite, h.startNvmOp (by decide) hpend]
  exact h.write (by decide) rfl rfl ⟨.inr rfl, rfl, hie⟩

theorem State.Running.afterWaitWrite (h : s.Running c k f .s7) (hb : s.nvmBusy = false) :
    (s.ppGoto .s8).Running c k f .s8 := by
  obtain ⟨-, hreads, hie⟩ := h.programmerOk
  exact h.write (by decide) rfl rfl ⟨State.nvmPend_eq_none hb, hreads, hie⟩

theorem ppRestoreRead_ends (h : s.Running c k f .s8) : Ends c (State.Running c k f .s9) (ppRestoreRead s) := by
  obtain ⟨hpend, -, hie⟩ := h.programmerOk
  rw [ppRestoreRead, execNvmRwwen_eq_next.2 ⟨State.nvmBusy_eq_false (s := s) hpend, rfl⟩]
  exact h.write (by decide) rfl rfl ⟨hpend, rfl, hie⟩

theorem ppReturn_ends (h : s.Running c k f .s9) : Ends c (State.Running c k f .idle) (ppReturn s) := by
  obtain ⟨hpend, hreads, -⟩ := h.programmerOk
  exact h.write (by decide) rfl rfl ⟨.inl hpend, hreads⟩

/-- The step of a running commit ends in a good state. -/
theorem ppStep_ends (h : s.Sound c k) (hrun : s.ppStep ≠ .idle) : Ends c (State.Sound c k) (ppStep s) := by
  have hr : ∀ q, s.ppStep = q → s.Running c k s.flushK q := fun q hq =>
    ⟨h, (h.inv.commit.resolve_left hrun).1, rfl, hq⟩
  unfold ppStep
  cases hq : s.ppStep
  case idle => exact absurd hq hrun
  case s1 => exact (ppSuspend_ends (hr _ hq)).mono fun _ ht => ht.toSound
  case s2 => exact waitReady_ends h fun hb => ((hr _ hq).afterWaitController hb).toSound
  case s3 => exact (ppErase_ends (hr _ hq)).mono fun _ ht => ht.toSound
  case s4 => exact waitReady_ends h fun hb => ((hr _ hq).afterWaitErase hb).toSound
  case s5 => exact (ppStage_ends (hr _ hq)).mono fun _ ht => ht.1.toSound
  case s6 => exact (ppWrite_ends (hr _ hq)).mono fun _ ht => ht.toSound
  case s7 => exact waitReady_ends h fun hb => ((hr _ hq).afterWaitWrite hb).toSound
  case s8 => exact (ppRestoreRead_ends (hr _ hq)).mono fun _ ht => ht.toSound
  case s9 => exact (ppReturn_ends (hr _ hq)).mono fun _ ht => ht.toSound

/-! ## The whole commit -/

/-- Staging what is left of the page ends at step 6. -/
theorem stageWords_ends (n : Nat) (h : s.Running c k f .s5) (hn : s.widx + n = c.pageWords) (hpos : 0 < n) :
    Ends c (State.Running c k f .s6) (stageWords n s) := by
  induction n generalizing s with
  | zero => exact absurd hpos (lt_irrefl 0)
  | succ n ih =>
    refine (ppStage_ends h).andThen fun t ⟨ht, hw⟩ => ?_
    by_cases hlast : s.widx + 1 = c.pageWords
    · obtain rfl : n = 0 := by omega
      rwa [if_pos hlast] at ht
    · rw [if_neg hlast] at ht
      exact ih ht (by omega) (by omega)

/-- The controller completes, then the block goes on. -/
theorem thenComplete_ends {g : State → Result} (h : s.Running c k f p)
    (hg : ∀ t, t.Running c k f p → t.nvmBusy = false → Ends c Q (g t)) : Ends c Q (thenComplete g s) :=
  hg _ h.nvmcComplete s.nvmcComplete_nvmBusy

/-- A whole commit of the flush's page returns to `ADV`. -/
theorem execCommit_ends (h : s.Stands c k .ackAdv) :
    Ends c (fun t => t.Stands c k .ackAdv ∧ t.flushK = s.flushK) (execCommit s.taddr s.flushSrc s) := by
  rw [execCommit, if_pos h.idle]
  refine (ppSuspend_ends h.ppInvoke).andThen fun _ h2 => thenComplete_ends h2 fun u h2 hb => ?_
  rw [ppWaitController, waitReady_idle hb, andThen_next]
  refine (ppErase_ends (h2.afterWaitController hb)).andThen fun _ h4 => thenComplete_ends h4 fun u h4 hb => ?_
  rw [ppWaitErase, waitReady_idle hb, andThen_next]
  have h5 := h4.afterWaitErase hb
  have hwords : u.cfg.pageWords = c.pageWords := by rw [h4.cfg]
  refine (stageWords_ends u.cfg.pageWords h5 ((Nat.zero_add _).trans hwords) h5.programmerOk.2.2.2).andThen fun _ h6 => ?_
  refine (ppWrite_ends h6).andThen fun _ h7 => thenComplete_ends h7 fun u h7 hb => ?_
  rw [ppWaitWrite, waitReady_idle hb, andThen_next]
  refine (ppRestoreRead_ends (h7.afterWaitWrite hb)).andThen fun _ h9 => ?_
  exact (ppReturn_ends h9).mono fun _ hi => ⟨⟨hi.toSound, hi.programmer, hi.phase⟩, hi.page⟩

end Sys2Proof.Machine
end

section
/-! SUPPORT. What a whole-unit move is (R116 to R118): a fine step, one page of a flush, or a wire unit. -/

namespace Sys2Proof

/-- A received unit is `EOT`, or a packet with a payload of 128 bytes (R62, R69). -/
theorem decodeReceived_cases {bytes rest : List Byte} {i : Instr} (h : decodeReceived bytes = .ok (i, rest)) :
    i = .eot ∨ ∃ seq cmp payload hi lo, i = .soh seq cmp payload hi lo ∧ payload.length = blockSize := by
  cases bytes with
  | nil => simp [decodeReceived] at h
  | cons b body =>
    simp only [decodeReceived] at h
    split_ifs at h
    · unfold decodePacketBody at h
      split at h
      · next seq cmp body' =>
        split at h
        · next hi lo _ hdrop =>
          have hlen := congrArg List.length hdrop
          rw [List.length_drop] at hlen
          cases h
          refine .inr ⟨seq, cmp, _, hi, lo, rfl, List.length_take_of_le ?_⟩
          simp only [List.length_cons] at hlen
          omega
        · cases h
      · cases h
    · cases h; exact .inl rfl

namespace Machine

/-! ## An instruction run whole -/

theorem runInstr_crq (s : State) : runInstr .crq s = execCrq s := andThen_pure _

theorem runInstr_ack (s : State) : runInstr .ack s = execAck s := andThen_pure _

theorem runInstr_nak (s : State) : runInstr .nak s = execNak s := andThen_pure _

theorem runInstr_eot (s : State) : runInstr .eot s = execEot (s.dropRx 1) := andThen_pure _

theorem runInstr_soh (seq cmp : Byte) (payload : List Byte) (hi lo : Byte) (s : State) :
    runInstr (.soh seq cmp payload hi lo) s = execSoh seq cmp payload hi lo (s.dropRx packetBytes) := andThen_pure _

theorem runInstr_crc16 (bytes : List Byte) (s : State) :
    runInstr (.crc16 bytes) s = andThen (execCrc16 bytes s) fun t => .next t.judge := rfl

/-- A commit run whole is a page of the flush: the guard changes neither operand. -/
theorem runInstr_commit (s : State) : runInstr (.commit s.taddr s.flushSrc) s = flushPage s := by
  unfold runInstr flushPage beforeExec flushGuard
  split_ifs <;> rfl

/-- The command a step of the Page Programmer issues, run whole, is that step. -/
theorem runInstr_fetchCommand {s : State} {i : Instr} (h : s.fetchCommand = some i) : runInstr i s = ppStep s := by
  unfold State.fetchCommand at h
  unfold ppStep
  cases hp : s.ppStep <;> simp only [hp] at h
  case s3 | s6 | s8 => cases h; rfl
  case s5 =>
    split_ifs at h with hin
    cases h
    exact (if_pos hin).symm
  all_goals cases h

/-- The instruction that starts at the Receiver's phase, run whole: its fine step, a page of a flush, or a wire unit. -/
theorem runInstr_fetchReceiver {s : State} {i : Instr} (h : s.fetchReceiver = some i) :
    runInstr i s = receiverStep s ∨ (s.ctl = .ackFlush ∧ runInstr i s = flushPage s) ∨
    ((s.ctl = .awaitMark ∨ s.ctl = .hdrMark) ∧ (runInstr i s = execEot (s.dropRx 1) ∨
      ∃ seq cmp payload hi lo, payload.length = blockSize ∧
        runInstr i s = execSoh seq cmp payload hi lo (s.dropRx packetBytes))) := by
  unfold State.fetchReceiver at h
  unfold receiverStep
  cases hc : s.ctl <;> simp only [hc] at h
  case awaitReq => cases h; exact .inl (runInstr_crq s)
  case ackSend | termSend => cases h; exact .inl (runInstr_ack s)
  case rejecting => cases h; exact .inl (runInstr_nak s)
  case validating =>
    split_ifs at h with hspan
    cases h
    exact .inl (by rw [runInstr_crc16, validate, if_pos hspan])
  case ackFlush => cases h; exact .inr (.inl ⟨rfl, runInstr_commit s⟩)
  case awaitMark | hdrMark =>
    refine .inr (.inr ⟨by simp, ?_⟩)
    unfold State.fetchWireUnit at h
    split at h
    · next hdec =>
      cases h
      obtain rfl | ⟨seq, cmp, payload, hi, lo, rfl, hlen⟩ := decodeReceived_cases hdec
      · exact .inl (runInstr_eot s)
      · exact .inr ⟨seq, cmp, payload, hi, lo, hlen, runInstr_soh seq cmp payload hi lo s⟩
    · cases h
  all_goals cases h

/-- A whole-unit move: the fine step, or, while no commit runs, a page of a flush or a wire unit taken from `RXQ`. -/
theorem unitStep_cases (s : State) :
    unitStep s = rcvStep s ∨ (s.ppStep = .idle ∧ s.ctl = .ackFlush ∧ unitStep s = flushPage s) ∨
    (s.ppStep = .idle ∧ (s.ctl = .awaitMark ∨ s.ctl = .hdrMark) ∧ (unitStep s = execEot (s.dropRx 1) ∨
      ∃ seq cmp payload hi lo, payload.length = blockSize ∧
        unitStep s = execSoh seq cmp payload hi lo (s.dropRx packetBytes))) := by
  cases hf : fetch s with
  | none => exact .inl (unitStep_none hf)
  | some i =>
    rw [unitStep_some hf]
    by_cases hi : s.ppStep = .idle
    · rw [fetch, if_pos hi] at hf
      rw [rcvStep_idle hi]
      obtain h | ⟨hc, h⟩ | ⟨hm, h⟩ := runInstr_fetchReceiver hf
      · exact .inl h
      · exact .inr (.inl ⟨hi, hc, h⟩)
      · exact .inr (.inr ⟨hi, hm, h⟩)
    · rw [fetch, if_neg hi] at hf
      rw [rcvStep_running hi]
      exact .inl (runInstr_fetchCommand hf)

end Machine

end Sys2Proof
end

section
/-! SUPPORT. The moves of all agents from good states: the block's fine step, the wire units, a page of a flush, reset and `start`. -/

namespace Sys2Proof.Machine

variable {c : Config} {k : Prop} {ph : Ctl} {s : State}

/-! ## The block's fine step -/

theorem receiverStep_ends (h : s.Sound c k) (hi : s.ppStep = .idle) : Ends c (State.Sound c k) (receiverStep s) := by
  have hs : ∀ ph, s.ctl = ph → s.Stands c k ph := fun _ hc => ⟨h, hi, hc⟩
  unfold receiverStep
  cases hc : s.ctl
  case awaitHold | termEnd => exact h
  case awaitReq => exact (execCrq_ends (hs _ hc)).mono fun _ ht => ht.toSound
  case awaitMark => exact rcvRead_ends (hs _ hc) fun b _ ht => rcvByte_ends_of_mark ht (.inl rfl) b
  case hdrMark => exact rcvRead_ends (hs _ hc) fun b _ ht => rcvByte_ends_of_mark ht (.inr rfl) b
  case hdrSeq => exact rcvRead_ends (hs _ hc) fun b _ ht => (rcvByte_ends_of_hdrSeq ht b).mono fun _ hu => hu.toSound
  case hdrCmp => exact rcvRead_ends (hs _ hc) fun b _ ht => (rcvByte_ends_of_hdrCmp ht b).mono fun _ hu => hu.1.toSound
  case payData => exact rcvRead_ends (hs _ hc) fun b _ ht => rcvByte_ends_of_payData ht b
  case payCrcHi => exact rcvRead_ends (hs _ hc) fun b _ ht => (rcvByte_ends_of_payCrcHi ht b).mono fun _ hu => hu.toSound
  case payCrcLo => exact rcvRead_ends (hs _ hc) fun b _ ht => (rcvByte_ends_of_payCrcLo ht b).mono fun _ hu => hu.toSound
  case validating => exact (validate_ends (hs _ hc)).mono fun _ ht => ht.elim (·.toSound) (·.toSound)
  case ackCheck => exact (hs _ hc).flushCheck.elim (·.1.toSound) (·.toSound)
  case ackFlush => exact (flushGuard_ends (hs _ hc)).andThen fun _ ht => ht.1.ppInvoke.toSound
  case ackAdv =>
    have ha := (hs _ hc).flushAdvance
    split_ifs at ha
    · exact ha.toSound
    · exact ha.1.toSound
  case ackSend => exact (execAck_ends_of_ackSend (hs _ hc)).mono fun _ ht => ht.toSound
  case rejecting => exact (execNak_ends (hs _ hc)).mono fun _ ht => ht.toSound
  case termSend => exact (execAck_ends_of_termSend (hs _ hc)).mono fun _ ht => ht.toSound

theorem rcvStep_ends (h : s.Sound c k) : Ends c (State.Sound c k) (rcvStep s) := by
  by_cases hi : s.ppStep = .idle
  · rw [rcvStep_idle hi]; exact receiverStep_ends h hi
  · rw [rcvStep_running hi]; exact ppStep_ends h hi

/-! ## A flush -/

/-- A page of a flush: the last one leads to the acknowledge, an earlier one to the next page. -/
theorem flushPage_ends (h : s.Stands c k .ackFlush) :
    Ends c (fun t => if s.flushK.toNat + 1 = c.nPages then t.Stands c k .ackSend
      else t.Stands c k .ackFlush ∧ t.flushK.toNat = s.flushK.toNat + 1) (flushPage s) := by
  refine (flushGuard_ends h).andThen fun t ⟨ht, hk⟩ => (execCommit_ends ht).andThen fun u ⟨hu, hk'⟩ => ?_
  rw [← hk, ← hk']
  exact hu.flushAdvance

/-- The pages that are left of a flush lead to the acknowledge. -/
theorem flushPages_ends (n : Nat) (h : s.Stands c k .ackFlush) (hn : s.flushK.toNat + n = c.nPages) (hpos : 0 < n) :
    Ends c (State.Stands c k .ackSend) (flushPages n s) := by
  induction n generalizing s with
  | zero => exact absurd hpos (lt_irrefl 0)
  | succ n ih =>
    refine (flushPage_ends h).andThen fun t ht => ?_
    by_cases hlast : s.flushK.toNat + 1 = c.nPages
    · obtain rfl : n = 0 := by omega
      rwa [if_pos hlast] at ht
    · rw [if_neg hlast] at ht
      exact ih ht.1 (by omega) (by omega)

theorem acknowledge_ends (h : s.Stands c k .ackCheck) : Ends c (State.Sound c k) (acknowledge s) := by
  unfold acknowledge
  obtain ⟨hf, hzero⟩ | hf := h.flushCheck
  · rw [if_pos hf.phase]
    have hpages : s.cfg.nPages = c.nPages := by rw [h.cfg]
    refine (flushPages_ends _ hf (by rw [hzero, hpages]; exact Nat.zero_add _) s.cfg.nPages_pos).andThen fun _ ht => ?_
    exact (execAck_ends_of_ackSend ht).mono fun _ hu => hu.toSound
  · rw [if_neg (by simp [hf.phase])]
    exact (execAck_ends_of_ackSend hf).mono fun _ hu => hu.toSound

theorem conclude_ends (h : s.Stands c k .ackCheck ∨ s.Stands c k .rejecting) : Ends c (State.Sound c k) (conclude s) := by
  unfold conclude
  obtain h | h := h
  · rw [if_pos h.phase]; exact acknowledge_ends h
  · rw [if_neg (by simp [h.phase])]
    exact (execNak_ends h).mono fun _ ht => ht.toSound

/-! ## The wire units -/

/-- The bytes that are left of a payload complete it. -/
theorem rcvBytes_payload_ends (payload : List Byte) (h : s.Stands c k .payData) (hn : s.bcnt.toNat + payload.length = 128) :
    Ends c (State.Stands c k .payCrcHi) (rcvBytes payload s) := by
  induction payload generalizing s with
  | nil => have := s.bcnt.isLt; simp at hn; omega
  | cons b bs ih =>
    rw [List.length_cons] at hn
    rw [rcvBytes, rcvByte_of_payData h.phase]
    refine (payloadByte_ends h b).andThen fun t ht => ?_
    by_cases hlast : s.bcnt = 127
    · obtain rfl : bs = [] := by
        have h127 : s.bcnt.toNat = 127 := by rw [hlast]; rfl
        exact List.length_eq_zero_iff.1 (by omega)
      rwa [if_pos hlast] at ht
    · rw [if_neg hlast] at ht
      refine ih ht.1 ?_
      rw [ht.2, bcnt_succ hlast]
      omega

/-- A packet's bytes at a marker position lead to its validation. -/
theorem rcvBytes_packet_ends (h : s.Stands c k ph) (hm : ph = .awaitMark ∨ ph = .hdrMark) (seq cmp : Byte)
    {payload : List Byte} (hl : payload.length = blockSize) (hi lo : Byte) :
    Ends c (State.Stands c k .validating) (rcvBytes (symSOH :: packetBody seq cmp payload hi lo) s) := by
  refine (rcvByte_ends_of_soh h hm).andThen fun _ h => (rcvByte_ends_of_hdrSeq h seq).andThen fun _ h =>
    (rcvByte_ends_of_hdrCmp h cmp).andThen fun t ⟨h, hzero⟩ => ?_
  rw [rcvBytes_append]
  refine (rcvBytes_payload_ends payload h (by rw [hzero, hl]; rfl)).andThen fun _ h => ?_
  refine (rcvByte_ends_of_payCrcHi h hi).andThen fun _ h => (rcvByte_ends_of_payCrcLo h lo).andThen fun _ h => h

theorem State.Stands.receiverAtMark (h : s.Stands c k ph) (hm : ph = .awaitMark ∨ ph = .hdrMark) : s.receiverAtMark = true :=
  s.receiverAtMark_iff.2 ⟨h.idle, h.phase ▸ hm⟩

theorem execSoh_ends (h : s.Stands c k ph) (hm : ph = .awaitMark ∨ ph = .hdrMark) (seq cmp : Byte)
    {payload : List Byte} (hl : payload.length = blockSize) (hi lo : Byte) :
    Ends c (State.Sound c k) (execSoh seq cmp payload hi lo s) := by
  rw [execSoh, if_pos hl, if_pos (h.receiverAtMark hm)]
  exact (rcvBytes_packet_ends h hm seq cmp hl hi lo).andThen fun _ h => (validate_ends h).andThen fun _ h => conclude_ends h

theorem execEot_ends (h : s.Stands c k ph) (hm : ph = .awaitMark ∨ ph = .hdrMark) :
    Ends c (State.Sound c k) (execEot s) := by
  rw [execEot, if_pos (h.receiverAtMark hm)]
  exact (rcvByte_ends_of_eot h hm).andThen fun _ h => (execAck_ends_of_termSend h).mono fun _ h => h.toSound

theorem unitStep_ends (h : s.Sound c k) : Ends c (State.Sound c k) (unitStep s) := by
  obtain hu | ⟨hi, hc, hu⟩ | ⟨hi, hm, hu | ⟨seq, cmp, payload, hi', lo, hl, hu⟩⟩ := unitStep_cases s <;> rw [hu]
  · exact rcvStep_ends h
  · refine (flushPage_ends ⟨h, hi, hc⟩).mono fun t ht => ?_
    split_ifs at ht
    · exact ht.toSound
    · exact ht.1.toSound
  · exact execEot_ends ((State.Stands.mk h hi rfl).free rfl) hm
  · exact execSoh_ends ((State.Stands.mk h hi rfl).free rfl) hm seq cmp hl hi' lo

/-! ## The other agents -/

/-- `start` at `HOLD` creates the session (R92). -/
theorem State.Sound.bootStart (h : s.Sound c k) : s.bootStart.Sound c k := by
  unfold State.bootStart
  split_ifs with ha
  · obtain ⟨hi, hc⟩ := (s.receiverAt_iff _).1 ha
    obtain ⟨-, -, -, -, hbase, -, hlim, -⟩ := (Config.admitted_iff _).1 h.inv.admitted
    refine State.Stands.toSound (ph := .awaitReq) ?_
    exact (State.Stands.mk h hi hc).write rfl rfl rfl (.inr rfl) ⟨hbase, le_rfl, hlim.le, by simp⟩ (by simp [State.doneOk])
      fun _ i hi => absurd hi (Nat.not_lt_zero i)
  · exact h

theorem State.Inv.memoryOk_hardReset (h : s.Inv) (r : PlatformReset) : (s.hardReset r).memoryOk := by
  obtain ⟨-, -, -, -, hnw, hnb, hdw, hdb⟩ := h.memory
  have hn : (Memory.wf s.nvmAfterReset = true ∧ Memory.below s.cfg.nvmSize s.nvmAfterReset = true) ∧
      Memory.wf s.nvmDrawAfterReset = true ∧ Memory.below s.cfg.nvmSize s.nvmDrawAfterReset = true := by
    unfold State.nvmAfterReset State.nvmDrawAfterReset
    split
    · next a ha => exact ⟨⟨Memory.wf_forget hnw _ _, Memory.below_forget hnb _ _⟩, h.redrawPage (h.pend_page_fits ha)⟩
    · exact ⟨⟨hnw, hnb⟩, hdw, hdb⟩
  exact ⟨rfl, rfl, rfl, rfl, hn.1.1, hn.1.2, hn.2⟩

/-- A reset leaves nothing of the block's outstanding (R211). -/
theorem State.pendAfterReset_noOwn (s : State) (r : PlatformReset) :
    s.pendAfterReset r = none ∨ s.pendAfterReset r = some .foreign := by
  unfold State.pendAfterReset
  split
  · exact .inl rfl
  · cases r.foreignBusy
    · exact .inl rfl
    · exact .inr rfl

theorem State.Sound.hardReset (h : s.Sound c k) (r : PlatformReset) : (s.hardReset r).Sound c k := by
  obtain ⟨-, -, -, -, hbase, -, hlim, -⟩ := (Config.admitted_iff _).1 h.inv.admitted
  refine ⟨h.cfg, ⟨h.inv.admitted, h.inv.memoryOk_hardReset r, rfl, .inr rfl, ⟨hbase, le_rfl, hlim.le, ?_⟩,
    ⟨s.pendAfterReset_noOwn r, rfl⟩, .inl rfl, ?_⟩, fun _ i hi => absurd hi (Nat.not_lt_zero i)⟩
  · simp [State.hardReset]
  · simp [State.doneOk, State.hardReset]

/-- A move of any agent from a good state ends in one, or at the bound of the application region. -/
theorem runEvent_ends (e : Event) (h : s.Sound c k) : Ends c (State.Sound c k) (runEvent e s) := by
  cases e with
  | rcv => exact rcvStep_ends h
  | unit => exact unitStep_ends h
  | start => exact h.bootStart
  | readDone => exact h
  | send | take | irq => exact h.free rfl
  | complete => exact h.nvmcComplete
  | reset r => exact h.hardReset r
  | takeIrq => exact h.free (by rw [s.irqTaken_frame]; rfl)

/-- A step from a good state ends in a good state of the same configuration, the buffered bytes known if they were, or at the bound of
the application region. -/
theorem step_ends (h : s.Inv) : Ends s.cfg (State.Sound s.cfg s.bufKnown) (step s) := by
  have hs : s.popScript.Sound s.cfg s.bufKnown := State.Sound.free (s := s) ⟨rfl, h, id⟩ rfl
  rw [step, if_pos h.admitted]
  exact runEvent_ends s.nextEvent hs

theorem sound_of_step {t : State} (h : s.Inv) (ht : step s = .next t) : t.Sound s.cfg s.bufKnown := by
  have he := step_ends h
  rwa [ht] at he

/-! ## The statements about good states -/

/-- Settles O49: every operation ends in a good state, and a step is one of them or a sequence of them. -/
theorem everyStepKeepsTheInvariant : Obligations.EveryStepKeepsTheInvariant := by
  unfold Obligations.EveryStepKeepsTheInvariant
  exact fun s t h ht => (sound_of_step h ht).inv

/-- Settles O50: from a good state every operation but the guard of a flush answers a next state. -/
theorem goodStatesStopOnlyAtTheRegionBound : Obligations.GoodStatesStopOnlyAtTheRegionBound := by
  unfold Obligations.GoodStatesStopOnlyAtTheRegionBound
  intro s h
  have he := step_ends h
  exact ⟨fun r hr => by rwa [hr] at he, fun r hr => by rwa [hr] at he⟩

/-- Settles O52: the next state meets the invariant, which says so of `WOFF` at a marker position. -/
theorem offsetAtAMarkerIsAPacketBoundary : Obligations.OffsetAtAMarkerIsAPacketBoundary := by
  unfold Obligations.OffsetAtAMarkerIsAPacketBoundary
  intro s t h ht hm
  have hinv := (sound_of_step h ht).inv
  have hmark : t.ctl = .awaitMark ∨ t.ctl = .hdrMark := by
    cases hc : t.ctl <;> simp [hc, Ctl.atMark] at hm ⊢
  have hroom : t.woff % 128 = 0 ∧ t.woff + 128 ≤ t.cfg.bufSize := by
    have hw := hinv.woff
    have hge := t.cfg.bufSize_ge
    unfold State.woffOk at hw
    obtain hc | hc := hmark <;> simp only [hc] at hw
    · omega
    · exact hw
  have hbuf : t.cfg.bufSize = max t.cfg.pageSize 128 := rfl
  have hpage := Config.pageSize_cases hinv.admitted
  exact ⟨hroom.1, hroom.2, fun h64 => by omega, fun h64 => by omega⟩

/-- Settles O53: a payload byte is stored before `WOFF + BCNT` passes it; no other operation takes a byte away or passes one. -/
theorem bufferedBytesAreKnown : Obligations.BufferedBytesAreKnown := by
  unfold Obligations.BufferedBytesAreKnown
  exact fun s t h hk ht => (sound_of_step h ht).known hk

end Sys2Proof.Machine
end

section
/-! SUPPORT. The block and the streams: every operation of the block is quiet (it leaves the configuration, the streams, the pending
requests and `DONE`) but the three symbols sent, of which a move sends at most one, as its last operation. -/

namespace Sys2Proof.Machine

/-- What every operation of the block leaves: the configuration, `RXQ` (its bytes are taken by the sequencing) and the pending
requests; and `BUF` too unless `w`. -/
structure State.Leaves (w : Prop) (s t : State) : Prop where
  cfg : t.cfg = s.cfg
  rxq : t.rxq = s.rxq
  irqPending : t.irqPending = s.irqPending
  buf : w ∨ t.buf = s.buf

/-- An operation that sends nothing and leaves `DONE`. -/
structure State.Quiet (w : Prop) (s t : State) : Prop extends State.Leaves w s t where
  txq : t.txq = s.txq
  done : t.done = s.done

/-- An operation that sends `b`, one of the three symbols (R73), and leaves `DONE` unless it is the final `ACK` (R112). -/
structure State.Sends (w : Prop) (b : Byte) (s t : State) : Prop extends State.Leaves w s t where
  symbol : b = 0x43 ∨ b = 0x06 ∨ b = 0x15
  txq : t.txq = s.txq ++ [b]
  done : t.done = s.done ∨ (b = 0x06 ∧ t.done = true ∧ t.ctl = .termEnd ∧ t.ppStep = .idle)

/-- Quiet operations, and at the end at most one that sends. -/
def State.Outputs (w : Prop) (s t : State) : Prop := s.Quiet w t ∨ ∃ b, s.Sends w b t

variable {w : Prop} {b : Byte} {s t u : State} {o : Result} {g : State → Result}

theorem State.Leaves.of_frame (h : t = { t with cfg := s.cfg, rxq := s.rxq, irqPending := s.irqPending, buf := s.buf }) :
    s.Leaves w t where
  cfg := by rw [h]
  rxq := by rw [h]
  irqPending := by rw [h]
  buf := .inr (by rw [h])

/-! ## Sequences -/

theorem State.Leaves.trans (h : s.Leaves w t) (h' : t.Leaves w u) : s.Leaves w u where
  cfg := h'.cfg.trans h.cfg
  rxq := h'.rxq.trans h.rxq
  irqPending := h'.irqPending.trans h.irqPending
  buf := h.buf.elim .inl fun hb => h'.buf.imp_right (·.trans hb)

theorem State.Quiet.trans (h : s.Quiet w t) (h' : t.Quiet w u) : s.Quiet w u :=
  ⟨h.toLeaves.trans h'.toLeaves, h'.txq.trans h.txq, h'.done.trans h.done⟩

theorem State.Quiet.trans_outputs (h : s.Quiet w t) (h' : t.Outputs w u) : s.Outputs w u := by
  obtain h' | ⟨b, h'⟩ := h'
  · exact .inl (h.trans h')
  · exact .inr ⟨b, h.toLeaves.trans h'.toLeaves, h'.symbol, by rw [h'.txq, h.txq], by rw [← h.done]; exact h'.done⟩

theorem State.Quiet.andThen (h : andThen o g = .next t) (ho : ∀ u, o = .next u → s.Quiet w u)
    (hg : ∀ u, g u = .next t → u.Quiet w t) : s.Quiet w t := by
  obtain ⟨u, hu, ht⟩ := andThen_eq_next.1 h
  exact (ho u hu).trans (hg u ht)

theorem State.Outputs.andThen (h : andThen o g = .next t) (ho : ∀ u, o = .next u → s.Quiet w u)
    (hg : ∀ u, g u = .next t → u.Outputs w t) : s.Outputs w t := by
  obtain ⟨u, hu, ht⟩ := andThen_eq_next.1 h
  exact (ho u hu).trans_outputs (hg u ht)

theorem State.Quiet.weaken {w' : Prop} (h : s.Quiet w t) (hw : w → w') : s.Quiet w' t :=
  ⟨⟨h.cfg, h.rxq, h.irqPending, h.buf.imp_left hw⟩, h.txq, h.done⟩

theorem State.Outputs.weaken {w' : Prop} (h : s.Outputs w t) (hw : w → w') : s.Outputs w' t := by
  obtain h | ⟨b, h⟩ := h
  · exact .inl (h.weaken hw)
  · exact .inr ⟨b, ⟨h.cfg, h.rxq, h.irqPending, h.buf.imp_left hw⟩, h.symbol, h.txq, h.done⟩

theorem State.Outputs.toLeaves (h : s.Outputs w t) : s.Leaves w t := h.elim (·.toLeaves) fun ⟨_, h⟩ => h.toLeaves

theorem State.Outputs.txq (h : s.Outputs w t) :
    t.txq = s.txq ∨ ∃ b : Byte, (b = 0x43 ∨ b = 0x06 ∨ b = 0x15) ∧ t.txq = s.txq ++ [b] :=
  h.imp (·.txq) fun ⟨b, h⟩ => ⟨b, h.symbol, h.txq⟩

theorem State.Outputs.done (h : s.Outputs w t) :
    t.done = s.done ∨ (t.txq = s.txq ++ [0x06] ∧ t.done = true ∧ t.ctl = .termEnd ∧ t.ppStep = .idle) := by
  obtain h | ⟨b, h⟩ := h
  · exact .inl h.done
  · refine h.done.imp_right ?_
    rintro ⟨rfl, hd⟩
    exact ⟨h.txq, hd⟩

/-! ## The symbols sent -/

theorem execCrq_outputs (h : execCrq s = .next t) : s.Outputs w t := by
  unfold execCrq at h
  split_ifs at h
  cases h
  exact .inr ⟨symCRQ, .of_frame rfl, .inl rfl, rfl, .inl rfl⟩

theorem execAck_outputs (h : execAck s = .next t) : s.Outputs w t := by
  unfold execAck at h
  split_ifs at h with _ hend
  · cases h
    exact .inr ⟨symACK, .of_frame rfl, .inr (.inl rfl), rfl, .inl rfl⟩
  · cases h
    exact .inr ⟨symACK, .of_frame rfl, .inr (.inl rfl), rfl, .inr ⟨rfl, rfl, rfl, ((s.receiverAt_iff _).1 hend).1⟩⟩

theorem execNak_outputs (h : execNak s = .next t) : s.Outputs w t := by
  unfold execNak at h
  split_ifs at h
  cases h
  exact .inr ⟨symNAK, .of_frame rfl, .inr (.inr rfl), rfl, .inl rfl⟩

/-! ## The Receiver's quiet operations -/

theorem State.marker_quiet (s : State) (b : Byte) : s.Quiet w (s.marker b) := by
  unfold State.marker
  split_ifs <;> exact ⟨.of_frame rfl, rfl, rfl⟩

/-- A byte read is quiet, and only a payload byte writes `BUF`. -/
theorem rcvByte_quiet (h : rcvByte b s = .next t) : s.Quiet (s.ctl = .payData) t := by
  unfold rcvByte at h
  cases hc : s.ctl <;> simp only [hc] at h
  case awaitMark | hdrMark => obtain rfl := next_eq_next.1 h; exact s.marker_quiet b
  case hdrSeq | hdrCmp | payCrcHi | payCrcLo => cases h; exact ⟨.of_frame rfl, rfl, rfl⟩
  case payData =>
    obtain ⟨u, hu, ht⟩ := andThen_eq_next.1 h
    obtain ⟨-, rfl⟩ := bufWrite_eq_next.1 hu
    obtain rfl := next_eq_next.1 ht
    split_ifs <;> exact ⟨⟨rfl, rfl, rfl, .inl rfl⟩, rfl, rfl⟩
  all_goals cases h

theorem rcvBytes_quiet {bytes : List Byte} (h : rcvBytes bytes s = .next t) : s.Quiet True t := by
  induction bytes generalizing s with
  | nil => cases h; exact ⟨.of_frame rfl, rfl, rfl⟩
  | cons b bs ih => exact .andThen h (fun _ hu => (rcvByte_quiet hu).weaken fun _ => trivial) fun _ hu => ih hu

theorem validate_quiet (h : validate s = .next t) : s.Quiet w t := by
  obtain ⟨-, rfl⟩ := validate_eq_next.1 h
  unfold State.judge
  split_ifs <;> exact ⟨.of_frame rfl, rfl, rfl⟩

theorem State.flushCheck_quiet (s : State) : s.Quiet w s.flushCheck := by
  unfold State.flushCheck
  split_ifs <;> exact ⟨.of_frame rfl, rfl, rfl⟩

theorem flushGuard_quiet (h : flushGuard s = .next t) : s.Quiet w t := by
  obtain ⟨-, rfl⟩ := flushGuard_eq_next.1 h
  exact ⟨.of_frame rfl, rfl, rfl⟩

theorem State.flushAdvance_quiet (s : State) : s.Quiet w s.flushAdvance := by
  unfold State.flushAdvance
  split_ifs <;> exact ⟨.of_frame rfl, rfl, rfl⟩

theorem State.ppInvoke_quiet (s : State) (a src : Nat) : s.Quiet w (s.ppInvoke a src) := ⟨.of_frame rfl, rfl, rfl⟩

/-! ## The Page Programmer and the controller -/

theorem State.Quiet.of_programmer (h : t = s.withProgrammerOf t) : s.Quiet w t := by
  rw [h]; exact ⟨.of_frame rfl, rfl, rfl⟩

theorem State.nvmcComplete_quiet (s : State) : s.Quiet w s.nvmcComplete := by
  rw [s.nvmcComplete_frame]; exact ⟨.of_frame rfl, rfl, rfl⟩

theorem State.Quiet.thenComplete (h : thenComplete g s = .next t) (hg : ∀ u, g u = .next t → u.Quiet w t) : s.Quiet w t :=
  s.nvmcComplete_quiet.trans (hg _ h)

theorem ppStage_quiet (h : ppStage s = .next t) : s.Quiet w t := by
  obtain ⟨-, -, -, rfl⟩ := ppStage_eq_next.1 h
  exact ⟨.of_frame rfl, rfl, rfl⟩

theorem ppStep_quiet (h : ppStep s = .next t) : s.Quiet w t := by
  obtain ⟨-, rfl⟩ | hf := ppStep_cases h
  · exact ⟨.of_frame rfl, rfl, rfl⟩
  · exact .of_programmer hf

theorem stageWords_quiet {n : Nat} (h : stageWords n s = .next t) : s.Quiet w t := by
  induction n generalizing s with
  | zero => cases h; exact ⟨.of_frame rfl, rfl, rfl⟩
  | succ n ih => exact .andThen h (fun _ hu => ppStage_quiet hu) fun _ hu => ih hu

theorem ppSuspend_quiet (h : ppSuspend s = .next t) : s.Quiet w t := by
  cases h; exact .of_programmer rfl

theorem ppReturn_quiet (h : ppReturn s = .next t) : s.Quiet w t := by
  cases h; exact .of_programmer rfl

theorem execCommit_quiet {a src : Nat} (h : execCommit a src s = .next t) : s.Quiet w t := by
  unfold execCommit at h
  split_ifs at h
  refine (s.ppInvoke_quiet a src).trans (.andThen h (fun _ hu => ppSuspend_quiet hu) fun _ h =>
    .thenComplete h fun _ h => ?_)
  refine .andThen h (fun _ hu => .of_programmer (waitReady_frame rfl hu)) fun _ h => ?_
  refine .andThen h (fun _ hu => .of_programmer (startNvmOp_ppGoto_frame hu)) fun _ h => .thenComplete h fun _ h => ?_
  refine .andThen h (fun _ hu => .of_programmer (waitReady_frame rfl hu)) fun _ h => ?_
  refine .andThen h (fun _ hu => stageWords_quiet hu) fun _ h => ?_
  refine .andThen h (fun _ hu => .of_programmer (startNvmOp_ppGoto_frame hu)) fun _ h => .thenComplete h fun _ h => ?_
  refine .andThen h (fun _ hu => .of_programmer (waitReady_frame rfl hu)) fun _ h => ?_
  exact .andThen h (fun _ hu => .of_programmer (ppRestoreRead_frame hu)) fun _ h => ppReturn_quiet h

/-! ## The wire units -/

theorem flushPage_quiet (h : flushPage s = .next t) : s.Quiet w t := by
  refine .andThen h (fun _ hu => flushGuard_quiet hu) fun _ h => .andThen h (fun _ hu => execCommit_quiet hu) fun u h => ?_
  obtain rfl := next_eq_next.1 h
  exact u.flushAdvance_quiet

theorem flushPages_quiet {n : Nat} (h : flushPages n s = .next t) : s.Quiet w t := by
  induction n generalizing s with
  | zero => cases h; exact ⟨.of_frame rfl, rfl, rfl⟩
  | succ n ih => exact .andThen h (fun _ hu => flushPage_quiet hu) fun _ hu => ih hu

theorem acknowledge_outputs (h : acknowledge s = .next t) : s.Outputs w t := by
  unfold acknowledge at h
  refine s.flushCheck_quiet.trans_outputs ?_
  split_ifs at h
  · exact .andThen h (fun _ hu => flushPages_quiet hu) fun _ hu => execAck_outputs hu
  · exact execAck_outputs h

theorem conclude_outputs (h : conclude s = .next t) : s.Outputs w t := by
  unfold conclude at h
  split_ifs at h
  · exact acknowledge_outputs h
  · exact execNak_outputs h

theorem execSoh_outputs {seq cmp hi lo : Byte} {payload : List Byte} (h : execSoh seq cmp payload hi lo s = .next t) :
    s.Outputs True t := by
  unfold execSoh at h
  split_ifs at h
  exact .andThen h (fun _ hu => rcvBytes_quiet hu) fun _ h =>
    .andThen h (fun _ hu => validate_quiet hu) fun _ hu => conclude_outputs hu

theorem execEot_outputs (h : execEot s = .next t) : s.Outputs True t := by
  unfold execEot at h
  split_ifs at h
  exact .andThen h (fun _ hu => (rcvByte_quiet hu).weaken fun _ => trivial) fun _ hu => execAck_outputs hu

/-! ## The block's moves -/

/-- A fine step of the Receiver takes at most one byte and sends at most one, and only a payload byte writes `BUF`. -/
theorem receiverStep_outputs (h : receiverStep s = .next t) : ∃ n ≤ 1, (s.dropRx n).Outputs (s.ctl = .payData) t := by
  have stays : s.Outputs (s.ctl = .payData) t → ∃ n ≤ 1, (s.dropRx n).Outputs (s.ctl = .payData) t :=
    fun ho => ⟨0, Nat.zero_le 1, ho⟩
  have reads : rcvRead s = .next t → ∃ n ≤ 1, (s.dropRx n).Outputs (s.ctl = .payData) t := by
    intro h
    unfold rcvRead at h
    split at h
    · cases h; exact stays (.inl ⟨.of_frame rfl, rfl, rfl⟩)
    · exact ⟨1, le_rfl, .inl (rcvByte_quiet h)⟩
  unfold receiverStep at h
  cases hc : s.ctl <;> rw [hc] at stays reads <;> simp only [hc] at h
  case awaitHold | termEnd => cases h; exact stays (.inl ⟨.of_frame rfl, rfl, rfl⟩)
  case awaitReq => exact stays (execCrq_outputs h)
  case awaitMark | hdrMark | hdrSeq | hdrCmp | payData | payCrcHi | payCrcLo => exact reads h
  case validating => exact stays (.inl (validate_quiet h))
  case ackCheck => obtain rfl := next_eq_next.1 h; exact stays (.inl s.flushCheck_quiet)
  case ackFlush =>
    refine stays (.inl (.andThen h (fun _ hu => flushGuard_quiet hu) fun u h => ?_))
    obtain rfl := next_eq_next.1 h
    exact u.ppInvoke_quiet _ _
  case ackAdv => obtain rfl := next_eq_next.1 h; exact stays (.inl s.flushAdvance_quiet)
  case ackSend | termSend => exact stays (execAck_outputs h)
  case rejecting => exact stays (execNak_outputs h)

theorem rcvStep_outputs (h : rcvStep s = .next t) : ∃ n ≤ 1, (s.dropRx n).Outputs (s.receiverAt .payData = true) t := by
  by_cases hi : s.ppStep = .idle
  · rw [rcvStep_idle hi] at h
    obtain ⟨n, hn, ho⟩ := receiverStep_outputs h
    exact ⟨n, hn, ho.weaken fun hc => (s.receiverAt_iff _).2 ⟨hi, hc⟩⟩
  · rw [rcvStep_running hi] at h
    exact ⟨0, Nat.zero_le 1, .inl (ppStep_quiet h)⟩

/-- A whole-unit move takes bytes from the front of `RXQ` alone and sends at most one. -/
theorem unitStep_outputs (h : unitStep s = .next t) : ∃ n, (s.dropRx n).Outputs True t := by
  obtain hu | ⟨-, -, hu⟩ | ⟨-, -, hu | ⟨seq, cmp, payload, hi, lo, -, hu⟩⟩ := unitStep_cases s <;> rw [hu] at h
  · obtain ⟨n, -, ho⟩ := rcvStep_outputs h
    exact ⟨n, ho.weaken fun _ => trivial⟩
  · exact ⟨0, .inl (flushPage_quiet h)⟩
  · exact ⟨1, execEot_outputs h⟩
  · exact ⟨packetBytes, execSoh_outputs h⟩

/-- Either move of the block. -/
theorem runEvent_outputs {e : Event} (he : e = .rcv ∨ e = .unit) (h : runEvent e s = .next t) :
    ∃ n, (s.dropRx n).Outputs True t := by
  obtain rfl | rfl := he
  · obtain ⟨n, -, ho⟩ := rcvStep_outputs h
    exact ⟨n, ho.weaken fun _ => trivial⟩
  · exact unitStep_outputs h

/-! ## The other agents' moves -/

theorem State.bootStart_leaves (s : State) : s.Leaves False s.bootStart ∧ s.bootStart.txq = s.txq := by
  unfold State.bootStart
  split_ifs <;> exact ⟨.of_frame rfl, rfl⟩

/-- `start` leaves `DONE` unless it creates a session (R92). -/
theorem State.bootStart_done (s : State) : s.bootStart.done = s.done ∨ s.receiverAt .awaitHold = true := by
  unfold State.bootStart
  split_ifs with h
  · exact .inr h
  · exact .inl rfl

theorem runEvent_streams {e : Event} (h : runEvent e s = .next t)
    (he : e = .start ∨ e = .readDone ∨ e = .complete ∨ e = .irq ∨ e = .takeIrq) : t.rxq = s.rxq ∧ t.txq = s.txq := by
  obtain rfl | rfl | rfl | rfl | rfl := he <;> obtain rfl := next_eq_next.1 h
  · exact ⟨s.bootStart_leaves.1.rxq, s.bootStart_leaves.2⟩
  · exact ⟨rfl, rfl⟩
  · rw [s.nvmcComplete_frame]; exact ⟨rfl, rfl⟩
  · exact ⟨rfl, rfl⟩
  · rw [s.irqTaken_frame]; exact ⟨rfl, rfl⟩

/-- No move of any agent changes the configuration. -/
theorem runEvent_cfg {e : Event} (h : runEvent e s = .next t) : t.cfg = s.cfg := by
  cases e with
  | rcv => obtain ⟨n, ho⟩ := runEvent_outputs (.inl rfl) h; exact ho.toLeaves.cfg
  | unit => obtain ⟨n, ho⟩ := runEvent_outputs (.inr rfl) h; exact ho.toLeaves.cfg
  | start => obtain rfl := next_eq_next.1 h; exact s.bootStart_leaves.1.cfg
  | complete => obtain rfl := next_eq_next.1 h; rw [s.nvmcComplete_frame]
  | takeIrq => obtain rfl := next_eq_next.1 h; rw [s.irqTaken_frame]
  | readDone | send | take | reset | irq => cases h; rfl

/-- Of the moves that are neither a whole unit nor a reset, only the block's step at a payload byte writes `BUF`. -/
theorem runEvent_buf {e : Event} (h : runEvent e s = .next t) (hu : e ≠ .unit) (hr : ∀ p, e ≠ .reset p) :
    t.buf = s.buf ∨ (e = .rcv ∧ s.receiverAt .payData = true) := by
  cases e with
  | rcv =>
    obtain ⟨n, -, ho⟩ := rcvStep_outputs h
    exact ho.toLeaves.buf.symm.imp_right fun ha => ⟨rfl, ha⟩
  | unit => exact absurd rfl hu
  | reset p => exact absurd rfl (hr p)
  | start => obtain rfl := next_eq_next.1 h; exact .inl (s.bootStart_leaves.1.buf.resolve_left id)
  | complete => obtain rfl := next_eq_next.1 h; exact .inl (by rw [s.nvmcComplete_frame])
  | takeIrq => obtain rfl := next_eq_next.1 h; exact .inl (by rw [s.irqTaken_frame])
  | readDone | send | take | irq => cases h; exact .inl rfl

/-- What a move does to `DONE`: nothing, but for the final `ACK`, a `start` that creates a session, and a reset. -/
theorem runEvent_done {e : Event} (h : runEvent e s = .next t) :
    t.done = s.done ∨ (t.txq = s.txq ++ [0x06] ∧ t.done = true ∧ t.ctl = .termEnd ∧ t.ppStep = .idle) ∨
    (t.done = false ∧ ((e = .start ∧ s.receiverAt .awaitHold = true) ∨ ∃ p, e = .reset p)) := by
  cases e with
  | rcv => obtain ⟨n, ho⟩ := runEvent_outputs (.inl rfl) h; exact ho.done.imp_right .inl
  | unit => obtain ⟨n, ho⟩ := runEvent_outputs (.inr rfl) h; exact ho.done.imp_right .inl
  | start =>
    obtain rfl := next_eq_next.1 h
    obtain hd | ha := s.bootStart_done
    · exact .inl hd
    · exact .inr (.inr ⟨by rw [State.bootStart, if_pos ha], .inl ⟨rfl, ha⟩⟩)
  | complete => obtain rfl := next_eq_next.1 h; exact .inl (by rw [s.nvmcComplete_frame])
  | takeIrq => obtain rfl := next_eq_next.1 h; exact .inl (by rw [s.irqTaken_frame])
  | reset p => cases h; exact .inr (.inr ⟨rfl, .inr ⟨p, rfl⟩⟩)
  | readDone | send | take | irq => cases h; exact .inl rfl

/-! ## The statements about every state -/

/-- Settles O54: the block's move is at most one symbol after quiet operations, and the other moves are read off one by one. -/
theorem outputIsOnlyTheThreeSymbols : Obligations.OutputIsOnlyTheThreeSymbols := by
  unfold Obligations.OutputIsOnlyTheThreeSymbols
  refine ⟨fun s b => ⟨rfl, rfl⟩, fun s t h => ?_⟩
  obtain ⟨-, hrun⟩ := step_eq_next.1 h
  refine ⟨fun he => ?_, fun he => ?_, fun he => ?_, fun b he => ?_, fun he => ?_, fun p he => ?_, fun he => ?_⟩
  · obtain ⟨n, ho⟩ := runEvent_outputs he hrun
    exact ho.txq
  · rw [he] at hrun
    obtain ⟨n, hn, ho⟩ := rcvStep_outputs hrun
    obtain rfl | rfl := Nat.le_one_iff_eq_zero_or_eq_one.1 hn
    · exact .inl ho.toLeaves.rxq
    · exact .inr ho.toLeaves.rxq
  · obtain ⟨n, ho⟩ := runEvent_outputs (.inr he) hrun
    exact ⟨n, ho.toLeaves.rxq⟩
  · rw [he] at hrun; cases hrun; exact ⟨rfl, rfl⟩
  · rw [he] at hrun; cases hrun; exact ⟨rfl, rfl⟩
  · rw [he] at hrun; cases hrun; exact ⟨rfl, rfl⟩
  · exact runEvent_streams (s := s.popScript) hrun he

/-- Settles O55: no move of any agent writes the configuration. -/
theorem configurationNeverChanges : Obligations.ConfigurationNeverChanges := by
  unfold Obligations.ConfigurationNeverChanges
  exact fun s t h => runEvent_cfg (s := s.popScript) (step_eq_next.1 h).2

/-- Settles O56: of the block's operations only a byte read at `ReceivingPayload`/`DATA` writes `BUF`. -/
theorem onlyPayloadBytesWriteTheBuffer : Obligations.OnlyPayloadBytesWriteTheBuffer := by
  unfold Obligations.OnlyPayloadBytesWriteTheBuffer
  exact fun s t h hu hr => runEvent_buf (s := s.popScript) (step_eq_next.1 h).2 hu hr

/-- Settles O58: the only operations that write `DONE` are the final `ACK`, a `start` at `HOLD`, and a reset. -/
theorem doneIsSetOnlyByTheFinalAck : Obligations.DoneIsSetOnlyByTheFinalAck := by
  unfold Obligations.DoneIsSetOnlyByTheFinalAck
  intro s t h
  obtain hd | ⟨htx, hd, hc, hp⟩ | ⟨hd, he⟩ := runEvent_done (step_eq_next.1 h).2
  · refine ⟨fun h0 h1 => ?_, fun h1 h0 => ?_⟩
    · exact absurd ((hd.trans h0).symm.trans h1) Bool.false_ne_true
    · exact absurd (h0.symm.trans (hd.trans h1)) Bool.false_ne_true
  · exact ⟨fun _ _ => ⟨hc, hp, htx⟩, fun _ h0 => absurd (h0.symm.trans hd) Bool.false_ne_true⟩
  · exact ⟨fun _ h1 => absurd (hd.symm.trans h1) Bool.false_ne_true, fun _ _ => he⟩

/-- Settles O60: no operation of the block writes the pending requests, and the platform takes one only while `IE` is 1. -/
theorem interruptRequestsAreHeldOff : Obligations.InterruptRequestsAreHeldOff := by
  unfold Obligations.InterruptRequestsAreHeldOff
  intro s t
  refine ⟨fun h => ?_, fun h => ?_, fun hie => ?_, fun hie _ => ?_⟩
  · obtain ⟨n, ho⟩ := runEvent_outputs (.inl rfl) h
    exact ho.toLeaves.irqPending
  · obtain ⟨n, ho⟩ := runEvent_outputs (.inr rfl) h
    exact ho.toLeaves.irqPending
  · simp [runEvent, State.irqTaken, hie]
  · simp [runEvent, State.irqTaken, hie]

end Sys2Proof.Machine
end

section
/-! SUPPORT. Words and bytes as numbers (R41, R42, R66, R67): what putting two bytes together and taking a word apart do to the values,
so that a question about byte order is one about remainders and quotients by 256. -/

namespace Sys2Proof.Machine

@[simp] theorem lowByte_toNat (w : Word) : (lowByte w).toNat = w.toNat % 256 := by
  simp [lowByte]

@[simp] theorem highByte_toNat (w : Word) : (highByte w).toNat = w.toNat / 256 := by
  have hw := w.isLt
  simp only [highByte, BitVec.truncate_eq_setWidth, BitVec.toNat_setWidth, BitVec.toNat_ushiftRight, Nat.shiftRight_eq_div_pow]
  omega

/-- The two orders differ only in which byte comes first. -/
theorem codeOf_eq_wordOf (hi lo : Byte) : codeOf hi lo = wordOf lo hi := BitVec.or_comm _ _

/-- A word of memory is its two bytes side by side, the second one high (R67). -/
theorem wordOf_eq_append (b0 b1 : Byte) : wordOf b0 b1 = b1 ++ b0 := by
  rw [BitVec.append_def, BitVec.shiftLeftZeroExtend_eq, BitVec.setWidth'_eq]
  exact BitVec.or_comm _ _

/-- Little-endian: the first byte counts ones, the second 256s (R67). -/
@[simp] theorem wordOf_toNat (b0 b1 : Byte) : (wordOf b0 b1).toNat = b0.toNat + 256 * b1.toNat := by
  rw [wordOf_eq_append, BitVec.toNat_append, ← Nat.shiftLeft_add_eq_or_of_lt b0.isLt, Nat.shiftLeft_eq]
  omega

theorem lowByte_wordOf (b0 b1 : Byte) : lowByte (wordOf b0 b1) = b0 := by
  have h0 := b0.isLt
  apply BitVec.eq_of_toNat_eq
  rw [lowByte_toNat, wordOf_toNat]
  omega

theorem highByte_wordOf (b0 b1 : Byte) : highByte (wordOf b0 b1) = b1 := by
  have h0 := b0.isLt
  apply BitVec.eq_of_toNat_eq
  rw [highByte_toNat, wordOf_toNat]
  omega

theorem wordOf_lowByte_highByte (w : Word) : wordOf (lowByte w) (highByte w) = w := by
  apply BitVec.eq_of_toNat_eq
  rw [wordOf_toNat, lowByte_toNat, highByte_toNat]
  exact Nat.mod_add_div w.toNat 256

/-- Settles O40: low byte and high byte are the remainder and the quotient by 256, and a code is the word of its bytes swapped. -/
theorem wordBytesRoundTrip : Obligations.WordBytesRoundTrip := by
  unfold Obligations.WordBytesRoundTrip
  exact fun b0 b1 w => ⟨lowByte_wordOf b0 b1, highByte_wordOf b0 b1, wordOf_lowByte_highByte w,
    (codeOf_eq_wordOf _ _).trans (wordOf_lowByte_highByte w)⟩

end Sys2Proof.Machine
end

section
/-! SUPPORT. The controller's commands with an operand the model gives no meaning (R44, R151 to R153; log 16). -/

namespace Sys2Proof.Machine

/-- An idle controller takes the command (R150). -/
theorem whileIdle_idle {f : State → Result} {s : State} (h : s.nvmBusy = false) : whileIdle f s = f s := by
  simp [whileIdle, h]

/-- An idle controller rejects an erase or a write of anything but a page start address. -/
theorem startNvmOp_not_pageAddr {op : NvmOp} {a : Nat} {s : State} (h : s.nvmBusy = false) (ha : ¬ s.cfg.isPageAddr a = true) :
    startNvmOp op a s = .fault .nvmOperandInvalid :=
  (whileIdle_idle h).trans (if_neg ha)

/-- An idle controller rejects a fill at anything but an even offset inside the page. -/
theorem execNvmFill_not_fillOffset {o : Nat} {w : Word} {s : State} (h : s.nvmBusy = false) (ho : ¬ s.cfg.isFillOffset o = true) :
    execNvmFill o w s = .fault .nvmOperandInvalid :=
  (whileIdle_idle h).trans (if_neg ho)

/-- Settles O33: an idle controller takes the command, and the check of its operand fails. -/
theorem invalidCommandOperandFaults : Obligations.InvalidCommandOperandFaults := by
  unfold Obligations.InvalidCommandOperandFaults
  intro s a o w h
  refine ⟨fun ha => ?_, fun ho => ?_⟩
  · rw [← Config.isPageAddr_iff] at ha
    exact ⟨startNvmOp_not_pageAddr h ha, startNvmOp_not_pageAddr h ha⟩
  · rw [← Config.isFillOffset_iff] at ho
    exact execNvmFill_not_fillOffset h ho

end Sys2Proof.Machine
end

section
/-! SUPPORT. The decoder and the encoder (R61 to R66, R69, R72, R73): for each wire interface exactly which bytes decode, and to what;
a command's bytes as a number, from which each field is read back. -/

namespace Sys2Proof

open Machine (packetBody)

variable {c : Config} {i : Instr} {bytes rest : List Byte}

/-! ## Received and sent units -/

/-- The bytes after a marker are a packet's (R62) exactly when a payload of 128 bytes stands between the header and the code. -/
theorem decodePacketBody_eq_ok :
    decodePacketBody bytes = .ok (i, rest) ↔
      ∃ seq cmp payload hi lo, payload.length = blockSize ∧ i = .soh seq cmp payload hi lo ∧
        bytes = packetBody seq cmp payload hi lo ++ rest := by
  constructor
  · intro h
    unfold decodePacketBody at h
    split at h
    · next seq cmp body =>
      split at h
      · next hi lo _ hdrop =>
        cases h
        have hlen : body.length - blockSize = rest.length + 2 := by
          simpa only [List.length_drop, List.length_cons] using congrArg List.length hdrop
        have hbody : body = body.take blockSize ++ hi :: lo :: rest := by rw [← hdrop, List.take_append_drop]
        refine ⟨seq, cmp, body.take blockSize, hi, lo, List.length_take_of_le (by omega), rfl, ?_⟩
        simpa [packetBody] using hbody
      · cases h
    · cases h
  · rintro ⟨seq, cmp, payload, hi, lo, hlen, rfl, rfl⟩
    simp [decodePacketBody, packetBody, ← hlen]

/-- Received bytes decode exactly when they begin with a packet or with `EOT` (R69, R71). -/
theorem decodeReceived_eq_ok :
    decodeReceived bytes = .ok (i, rest) ↔
      (∃ seq cmp payload hi lo, payload.length = blockSize ∧ i = .soh seq cmp payload hi lo ∧
        bytes = symSOH :: packetBody seq cmp payload hi lo ++ rest) ∨
      (i = .eot ∧ bytes = symEOT :: rest) := by
  constructor
  · intro h
    cases bytes with
    | nil => cases h
    | cons b body =>
      rw [decodeReceived] at h
      split_ifs at h with hsoh heot
      · obtain ⟨seq, cmp, payload, hi, lo, hlen, rfl, rfl⟩ := decodePacketBody_eq_ok.1 h
        exact .inl ⟨seq, cmp, payload, hi, lo, hlen, rfl, by rw [hsoh]; rfl⟩
      · cases h
        exact .inr ⟨rfl, by rw [heot]⟩
  · rintro (⟨seq, cmp, payload, hi, lo, hlen, rfl, rfl⟩ | ⟨rfl, rfl⟩)
    · exact decodePacketBody_eq_ok.2 ⟨seq, cmp, payload, hi, lo, hlen, rfl, rfl⟩
    · rfl

/-- Sent bytes decode exactly when they begin with one of the three symbols the block sends (R64, R73). -/
theorem decodeSent_eq_ok :
    decodeSent bytes = .ok (i, rest) ↔
      (i = .crq ∧ bytes = symCRQ :: rest) ∨ (i = .ack ∧ bytes = symACK :: rest) ∨ (i = .nak ∧ bytes = symNAK :: rest) := by
  constructor
  · intro h
    cases bytes with
    | nil => cases h
    | cons b body =>
      rw [decodeSent] at h
      split_ifs at h with hcrq hack hnak <;> cases h
      · exact .inl ⟨rfl, by rw [hcrq]⟩
      · exact .inr (.inl ⟨rfl, by rw [hack]⟩)
      · exact .inr (.inr ⟨rfl, by rw [hnak]⟩)
  · rintro (⟨rfl, rfl⟩ | ⟨rfl, rfl⟩ | ⟨rfl, rfl⟩) <;> rfl

/-- Settles O45: the units that decode on a wire interface are listed, each with its one encoding. -/
theorem wireBytesHaveOneMeaning : Obligations.WireBytesHaveOneMeaning := by
  unfold Obligations.WireBytesHaveOneMeaning
  intro c ch bytes rest i hch h
  cases ch with
  | received =>
    obtain ⟨seq, cmp, payload, hi, lo, hlen, rfl, rfl⟩ | ⟨rfl, rfl⟩ := decodeReceived_eq_ok.1 h
    · exact ⟨beq_iff_eq.2 hlen, _, rfl, rfl⟩
    · exact ⟨rfl, _, rfl, rfl⟩
  | sent =>
    obtain ⟨rfl, rfl⟩ | ⟨rfl, rfl⟩ | ⟨rfl, rfl⟩ := decodeSent_eq_ok.1 h <;> exact ⟨rfl, _, rfl, rfl⟩
  | command => exact absurd rfl hch

/-! ## Commands -/

/-- Reading back the `n` bytes of a number gives it modulo `256^n`. -/
theorem numberOf_bytesOf (n v : Nat) : numberOf (bytesOf n v) = v % 256 ^ n := by
  induction n generalizing v with
  | zero => simp [bytesOf, numberOf, Nat.mod_one]
  | succ n ih =>
    rw [bytesOf, numberOf, ih, BitVec.toNat_ofNat, pow_succ' 256, Nat.mod_mul]

/-- The bytes of a command hold all its bits. -/
theorem two_pow_commandBits_le (c : Config) : 2 ^ c.commandBits ≤ 256 ^ c.commandBytes := by
  have h256 : (256 : Nat) = 2 ^ 8 := rfl
  rw [h256, ← pow_mul]
  refine Nat.pow_le_pow_right (by decide) ?_
  unfold Config.commandBytes
  omega

section
variable {cmd addr data : Nat} (hcmd : cmd < 8) (haddr : addr < 2 ^ c.addrWidth) (hdata : data < 2 ^ 16)
include hcmd haddr hdata

/-- A command whose fields fit their widths has no bit above the triple. -/
theorem commandWord_lt : commandWord c cmd addr data < 2 ^ c.commandBits := by
  have hfields : addr + 2 ^ c.addrWidth * data < 2 ^ c.addrWidth * 2 ^ 16 :=
    calc addr + 2 ^ c.addrWidth * data < 2 ^ c.addrWidth * (data + 1) := by rw [mul_add_one]; omega
      _ ≤ 2 ^ c.addrWidth * 2 ^ 16 := Nat.mul_le_mul_left _ hdata
  rw [commandWord, Config.commandBits, pow_add, pow_add, mul_assoc]
  omega

/-- The three fields of a command are read from where they were put. -/
theorem decodeCommandWord_commandWord :
    decodeCommandWord c (commandWord c cmd addr data) = commandOf cmd addr data := by
  have hcode : commandWord c cmd addr data % 8 = cmd := by unfold commandWord; omega
  have hfields : commandWord c cmd addr data / 8 = addr + 2 ^ c.addrWidth * data := by unfold commandWord; omega
  have haddr' : (addr + 2 ^ c.addrWidth * data) % 2 ^ c.addrWidth = addr := by
    rw [Nat.add_mul_mod_self_left, Nat.mod_eq_of_lt haddr]
  have hdata' : (addr + 2 ^ c.addrWidth * data) / 2 ^ c.addrWidth = data := by
    rw [Nat.add_mul_div_left _ _ (Nat.two_pow_pos _), Nat.div_eq_of_lt haddr, Nat.zero_add]
  have hpow : 2 ^ (3 + c.addrWidth) = 8 * 2 ^ c.addrWidth := pow_add 2 3 _
  rw [decodeCommandWord, if_pos (commandWord_lt hcmd haddr hdata), hpow, ← Nat.div_div_eq_div_mul, hcode, hfields, haddr',
    hdata', Nat.mod_eq_of_lt hdata]

/-- The bytes of a command decode to what its code and fields stand for, whatever follows them (R65). -/
theorem decode_encodeCommand (hok : commandOf cmd addr data = .ok i) (rest : List Byte) :
    decode c .command (encodeCommand c cmd addr data ++ rest) = .ok (i, rest) := by
  have hlen := encodeCommand_length c cmd addr data
  have hnumber : numberOf (encodeCommand c cmd addr data) = commandWord c cmd addr data :=
    (numberOf_bytesOf _ _).trans
      (Nat.mod_eq_of_lt (Nat.lt_of_lt_of_le (commandWord_lt hcmd haddr hdata) (two_pow_commandBits_le c)))
  have hshort : ¬ (encodeCommand c cmd addr data ++ rest).length < c.commandBytes := by
    rw [List.length_append]; omega
  rw [decode, decodeCommand, if_neg hshort, List.take_left' hlen, List.drop_left' hlen, hnumber,
    decodeCommandWord_commandWord hcmd haddr hdata, hok]

end

/-- A page start address fits in `ADDR_WIDTH` bits. -/
theorem Config.pageAddr_lt (h : c.admitted = true) {a : Nat} (ha : c.isPageAddr a = true) : a < 2 ^ c.addrWidth :=
  Nat.lt_of_lt_of_le ((Machine.Config.isPageAddr_iff c a).1 ha).2 (Config.nvmSize_le h)

/-- A fill offset fits in `ADDR_WIDTH` bits: a page is no larger than the memory (R7). -/
theorem Config.fillOffset_lt (h : c.admitted = true) {o : Nat} (ho : c.isFillOffset o = true) : o < 2 ^ c.addrWidth := by
  have hoff : o + 2 ≤ c.pageSize := ((Machine.Config.isFillOffset_iff c o).1 ho).2
  have hzero : c.isPageAddr 0 = true :=
    (Machine.Config.isPageAddr_iff c 0).2 ⟨Nat.zero_mod _, Nat.zero_lt_of_lt (Config.appLimit_lt h)⟩
  have hpage : 0 + c.pageSize ≤ c.nvmSize := Config.page_fits h hzero
  have hmem := Config.nvmSize_le h
  omega

/-- Settles O44, by the format of the instruction: a wire unit is one the wire decoders list, a command's fields fit their widths. -/
theorem decodeOfEncodeIsTheInstruction : Obligations.DecodeOfEncodeIsTheInstruction := by
  unfold Obligations.DecodeOfEncodeIsTheInstruction
  intro c i ch bytes rest hadm hwf henc
  cases i with
  | soh seq cmp payload hi lo =>
    cases henc
    exact decodeReceived_eq_ok.2 (.inl ⟨seq, cmp, payload, hi, lo, beq_iff_eq.1 hwf, rfl, rfl⟩)
  | eot | crq | ack | nak => cases henc; rfl
  | nvmErase a | nvmWrite a =>
    cases henc
    exact decode_encodeCommand (by decide) (Config.pageAddr_lt hadm hwf) (by decide) rfl rest
  | nvmFill o w =>
    cases henc
    have hok : commandOf cmdFill o w.toNat = .ok (.nvmFill o w) := by
      simp [commandOf, cmdFill, cmdErase]
    exact decode_encodeCommand (by decide) (Config.fillOffset_lt hadm hwf) w.isLt hok rest
  | nvmRwwen =>
    cases henc
    exact decode_encodeCommand (by decide) (Nat.two_pow_pos _) (by decide) rfl rest
  | crc16 | commit => cases henc

/-- Settles O46: none of the four codes is one of a command's (R72). -/
theorem reservedCommandsAreRefused : Obligations.ReservedCommandsAreRefused := by
  unfold Obligations.ReservedCommandsAreRefused
  intro c v hv hcode
  rw [decodeCommandWord, if_pos hv]
  obtain h | h | h | h := hcode <;> rw [h] <;> rfl

/-- Settles O47: each word is closed, so the decoder evaluates. -/
theorem tableWordsDecode : Obligations.TableWordsDecode := by
  unfold Obligations.TableWordsDecode
  exact ⟨rfl, rfl, rfl, rfl, rfl, rfl, rfl, rfl⟩

end Sys2Proof
end

section
/-! SUPPORT. A wire unit at a marker position, whole (R68, R69, R116, R117): the bytes a step takes for it, and that a packet's sequence
fields leave no trace. -/

namespace Sys2Proof.Machine

variable {s : State} {i : Instr} {rest : List Byte}

/-- At a marker position the wire unit at the front of `RXQ` is the instruction that starts (R69). -/
theorem fetch_of_decodeReceived (hm : s.receiverAtMark = true) (h : decodeReceived s.rxq = .ok (i, rest)) :
    fetch s = some i := by
  obtain ⟨hidle, hc⟩ := s.receiverAtMark_iff.1 hm
  have hunit : s.fetchWireUnit = some i := by simp [State.fetchWireUnit, decode, h]
  rw [fetch, if_pos hidle, State.fetchReceiver]
  obtain hc | hc := hc <;> rw [hc] <;> exact hunit

/-- A wire unit run whole takes exactly its bytes from `RXQ` (R69: 133 or 1), and nothing follows its meaning. -/
theorem runInstr_of_decodeReceived (h : decodeReceived s.rxq = .ok (i, rest)) :
    runInstr i s = exec i { s with rxq := rest } := by
  obtain ⟨seq, cmp, payload, hi, lo, hlen, rfl, hq⟩ | ⟨rfl, hq⟩ := decodeReceived_eq_ok.1 h
  · have hbytes : (symSOH :: packetBody seq cmp payload hi lo).length = packetBytes := by
      simp [packetBody, hlen, blockSize, packetBytes]
    rw [runInstr_soh, State.dropRx, hq, List.drop_left' hbytes]
    rfl
  · rw [runInstr_eot, State.dropRx, hq]
    rfl

/-- Settles O4: the unit that decodes is the instruction fetched, and running it takes its bytes. -/
theorem stepRunsTheWireUnit : Obligations.StepRunsTheWireUnit := by
  unfold Obligations.StepRunsTheWireUnit
  intro s i rest es hadm hscript hm hdec
  have hfetch : fetch { s with script := es } = some i := fetch_of_decodeReceived hm hdec
  rw [step_script hadm hscript, runEvent, unitStep_some hfetch]
  exact runInstr_of_decodeReceived hdec

/-- After the marker the two sequence fields are read and dropped, whatever they are (R68, R97, R98). -/
theorem rcvBytes_packet_header (hm : s.receiverAtMark = true) (seq cmp : Byte) (payload : List Byte) (hi lo : Byte) :
    rcvBytes (symSOH :: packetBody seq cmp payload hi lo) s =
      rcvBytes (payload ++ [hi, lo]) { s with bcnt := 0, ctl := .payData } := by
  obtain ⟨-, hc⟩ := s.receiverAtMark_iff.1 hm
  have hmark : rcvByte symSOH s = .next (s.goto .hdrSeq) := by
    obtain hc | hc := hc <;> simp only [rcvByte, hc] <;> rfl
  rw [rcvBytes, hmark]
  rfl

/-- Settles O26: the header leads to the same state for any pair of sequence fields, and nothing else reads them. -/
theorem sequenceFieldsDoNotMatter : Obligations.SequenceFieldsDoNotMatter := by
  unfold Obligations.SequenceFieldsDoNotMatter
  intro s seq cmp seq' cmp' payload hi lo
  change execSoh seq cmp payload hi lo s = execSoh seq' cmp' payload hi lo s
  by_cases hm : s.receiverAtMark = true
  · simp only [execSoh, rcvBytes_packet_header hm]
  · simp only [execSoh, if_neg hm]

end Sys2Proof.Machine
end

section
/-! SUPPORT. The CRC Engine's algebra (R81, R85, R86): one byte's update is linear in the register and the byte together, eight shifts
lose nothing when the polynomial's constant term is set, and a register that shifts nothing out of position 15 only moves up. -/

namespace Sys2Proof.Machine

variable {poly : Word}

/-! ## The algorithm (R81) -/

@[simp] theorem crcFrom_cons (poly c : Word) (b : Byte) (bs : List Byte) :
    crcFrom poly c (b :: bs) = crcFrom poly (crcByte poly c b) bs := rfl

/-- The code of a concatenation goes on from the code of its first part. -/
theorem crcFrom_append (poly c : Word) (xs ys : List Byte) :
    crcFrom poly c (xs ++ ys) = crcFrom poly (crcFrom poly c xs) ys := by
  induction xs generalizing c with
  | nil => rfl
  | cons x xs ih => exact ih _

theorem getLsbD_fifteen (c : Word) : c.getLsbD 15 = decide (2 ^ 15 ≤ c.toNat) :=
  (BitVec.msb_eq_getLsbD_last c).symm.trans (BitVec.msb_eq_decide c)

/-- A shift as arithmetic: twice the register, and the polynomial exactly when the register reaches 2^15. -/
theorem crcShift_eq (poly c : Word) :
    crcShift poly c = BitVec.ofNat 16 (2 * c.toNat) ^^^ if 2 ^ 15 ≤ c.toNat then poly else 0 := by
  have hdouble : c <<< 1 = BitVec.ofNat 16 (2 * c.toNat) := by
    apply BitVec.eq_of_toNat_eq
    rw [BitVec.toNat_shiftLeft, BitVec.toNat_ofNat, Nat.shiftLeft_eq, pow_one, Nat.mul_comm]
  unfold crcShift
  rw [getLsbD_fifteen, hdouble]
  by_cases h : 2 ^ 15 ≤ c.toNat
  · rw [if_pos h, if_pos (decide_eq_true h)]
  · rw [if_neg h, if_neg (by simpa using h)]
    exact BitVec.xor_zero.symm

theorem crcShift_toNat_of_lt {c : Word} (h : c.toNat < 2 ^ 15) : (crcShift poly c).toNat = c.toNat * 2 := by
  have hzero : (0 : Word) = 0#16 := rfl
  rw [crcShift_eq, if_neg (Nat.not_le.2 h), hzero, BitVec.xor_zero, BitVec.toNat_ofNat]
  omega

/-- Folding over any list takes as many shifts as it has elements. -/
theorem crcShifts_length (poly c : Word) (ns : List Nat) :
    crcShifts poly ns.length c = ns.foldl (fun x _ => crcShift poly x) c := by
  induction ns generalizing c with
  | nil => rfl
  | cons n ns ih => exact ih _

/-- Multiplying by 256 places the byte at the high end. -/
theorem zeroExtend_shiftLeft_eight (b : Byte) : b.zeroExtend 16 <<< 8 = BitVec.ofNat 16 (256 * b.toNat) := by
  have hb := b.isLt
  apply BitVec.eq_of_toNat_eq
  rw [BitVec.toNat_shiftLeft, BitVec.toNat_setWidth, BitVec.toNat_ofNat, Nat.shiftLeft_eq]
  omega

/-- Settles O41: the engine's clauses hold by definition, and the eight shifts are folded in their arithmetic form. -/
theorem crcEngineComputesTheCode : Obligations.CrcEngineComputesTheCode := by
  unfold Obligations.CrcEngineComputesTheCode
  intro s bytes b poly c
  refine ⟨rfl, rfl, crcFrom_append _ _ bytes [b], ?_⟩
  rw [← zeroExtend_shiftLeft_eight]
  simp only [← crcShift_eq]
  exact crcShifts_length poly _ (List.range 8)

/-! ## Linearity (R86) -/

/-- A shift is linear: where both registers add the polynomial, it cancels. -/
theorem crcShift_xor (poly c d : Word) : crcShift poly (c ^^^ d) = crcShift poly c ^^^ crcShift poly d := by
  unfold crcShift
  rw [BitVec.getLsbD_xor, BitVec.shiftLeft_xor_distrib]
  have hcancel : (c <<< 1 ^^^ poly) ^^^ (d <<< 1 ^^^ poly) = c <<< 1 ^^^ d <<< 1 := by
    calc (c <<< 1 ^^^ poly) ^^^ (d <<< 1 ^^^ poly) = (c <<< 1 ^^^ d <<< 1) ^^^ (poly ^^^ poly) := by ac_rfl
      _ = c <<< 1 ^^^ d <<< 1 := by rw [BitVec.xor_self, BitVec.xor_zero]
  cases c.getLsbD 15 <;> cases d.getLsbD 15
  · rfl
  · exact BitVec.xor_assoc ..
  · change c <<< 1 ^^^ d <<< 1 ^^^ poly = (c <<< 1 ^^^ poly) ^^^ d <<< 1
    ac_rfl
  · exact hcancel.symm

theorem crcShifts_xor (poly : Word) (n : Nat) (c d : Word) :
    crcShifts poly n (c ^^^ d) = crcShifts poly n c ^^^ crcShifts poly n d := by
  induction n generalizing c d with
  | zero => rfl
  | succ n ih => rw [crcShifts, crcShift_xor, ih]; rfl

theorem crcByte_xor (poly c d : Word) (a b : Byte) :
    crcByte poly (c ^^^ d) (a ^^^ b) = crcByte poly c a ^^^ crcByte poly d b := by
  simp only [crcByte, ← crcShifts_xor, BitVec.setWidth_xor, BitVec.shiftLeft_xor_distrib]
  congr 1
  ac_rfl

theorem crcFrom_xor (poly : Word) {xs ys : List Byte} (h : xs.length = ys.length) (c d : Word) :
    crcFrom poly (c ^^^ d) (List.zipWith (· ^^^ ·) xs ys) = crcFrom poly c xs ^^^ crcFrom poly d ys := by
  induction xs generalizing ys c d with
  | nil => obtain rfl := List.length_eq_zero_iff.1 h.symm; rfl
  | cons x xs ih =>
    cases ys with
    | nil => cases h
    | cons y ys =>
      rw [List.zipWith_cons_cons, crcFrom_cons, crcByte_xor]
      exact ih (Nat.succ.inj h) _ _

/-- Settles O43: every byte's update is linear, and the start value 0 is the sum of 0 and 0. -/
theorem codeIsLinear : Obligations.CodeIsLinear := by
  unfold Obligations.CodeIsLinear
  intro c xs ys hinit hlen
  simp only [crc16, hinit]
  exact crcFrom_xor c.crcPoly hlen 0 0

/-! ## The residue (R85) -/

/-- While nothing reaches position 15, shifting is all that happens. -/
theorem crcShifts_toNat_of_lt {n : Nat} {c : Word} (h : c.toNat * 2 ^ n < 2 ^ 16) :
    (crcShifts poly n c).toNat = c.toNat * 2 ^ n := by
  induction n generalizing c with
  | zero => exact (Nat.mul_one _).symm
  | succ n ih =>
    rw [pow_succ', ← mul_assoc] at h
    have htwice : c.toNat * 2 < 2 ^ 16 := Nat.lt_of_le_of_lt (Nat.le_mul_of_pos_right _ (Nat.two_pow_pos n)) h
    have hshift : (crcShift poly c).toNat = c.toNat * 2 := crcShift_toNat_of_lt (by omega)
    rw [crcShifts, ih (by rwa [hshift]), hshift, pow_succ', mul_assoc]

/-- The high byte cancels the high half of the register. -/
theorem xor_highByte (c : Word) : c ^^^ ((highByte c).zeroExtend 16 <<< 8) = (lowByte c).zeroExtend 16 := by
  apply BitVec.eq_of_getLsbD_eq
  intro i hi
  rw [BitVec.getLsbD_xor, BitVec.getLsbD_shiftLeft]
  by_cases h : i < 8
  · simp [lowByte, h, hi]
  · have hlo : i - 8 < 8 := by omega
    have hup : 8 + (i - 8) = i := by omega
    simp [highByte, lowByte, h, hi, hlo, hup, Nat.lt_trans hlo (by decide : 8 < 16)]

/-- The high byte of the register's own value leaves its low byte, moved up. -/
theorem crcByte_highByte (poly c : Word) : crcByte poly c (highByte c) = (lowByte c).zeroExtend 16 <<< 8 := by
  have hb := (lowByte c).isLt
  have hlow : ((lowByte c).zeroExtend 16).toNat = (lowByte c).toNat := by
    rw [BitVec.toNat_setWidth]; omega
  apply BitVec.eq_of_toNat_eq
  rw [crcByte, xor_highByte, crcShifts_toNat_of_lt (by omega), hlow, zeroExtend_shiftLeft_eight, BitVec.toNat_ofNat]
  omega

/-- A byte that stands at the high end of an otherwise empty register clears it. -/
theorem crcByte_self (poly : Word) (b : Byte) : crcByte poly (b.zeroExtend 16 <<< 8) b = 0 := by
  rw [crcByte, BitVec.xor_self]
  exact BitVec.eq_of_toNat_eq (crcShifts_toNat_of_lt (by decide))

/-- Settles O42: the high byte of the code leaves only its low byte, which then cancels itself. -/
theorem residueIsZero : Obligations.ResidueIsZero := by
  unfold Obligations.ResidueIsZero
  intro c bytes _
  rw [crc16, crcFrom_append]
  change crcByte c.crcPoly (crcByte c.crcPoly (crc16 c bytes) (highByte (crc16 c bytes))) (lowByte (crc16 c bytes)) = 0
  rw [crcByte_highByte, crcByte_self]

/-! ## Single-bit errors (R86) -/

section
variable (hp : poly.getLsbD 0 = true)
include hp

/-- A shift that added the polynomial shows it by its constant term; one that did not shifted nothing out. -/
theorem crcShift_eq_zero {c : Word} (h : crcShift poly c = 0) : c = 0 := by
  by_cases htop : 2 ^ 15 ≤ c.toNat
  · have hbit : (c <<< 1 ^^^ poly).getLsbD 0 = false := by
      rw [crcShift, if_pos (by rw [getLsbD_fifteen]; exact decide_eq_true htop)] at h
      rw [h]; rfl
    rw [BitVec.getLsbD_xor, hp] at hbit
    simp at hbit
  · have hval := crcShift_toNat_of_lt (poly := poly) (Nat.not_le.1 htop)
    rw [h] at hval
    exact BitVec.eq_of_toNat_eq ((Nat.mul_eq_zero.1 hval.symm).resolve_right (by decide))

theorem crcShift_injective : Function.Injective (crcShift poly) := fun c d h =>
  BitVec.xor_eq_zero_iff.1 (crcShift_eq_zero hp ((crcShift_xor poly c d).trans (BitVec.xor_eq_zero_iff.2 h)))

theorem crcShifts_injective (n : Nat) : Function.Injective (crcShifts poly n) := by
  induction n with
  | zero => exact Function.injective_id
  | succ n ih => exact ih.comp (crcShift_injective hp)

theorem crcByte_injective_left (b : Byte) : Function.Injective fun c => crcByte poly c b := fun _ _ h =>
  (BitVec.xor_left_inj _).1 (crcShifts_injective hp 8 h)

theorem crcByte_injective_right (c : Word) : Function.Injective (crcByte poly c) := fun a b h => by
  have hab := (BitVec.xor_right_inj _).1 (crcShifts_injective hp 8 h)
  have hnum := congrArg BitVec.toNat hab
  rw [zeroExtend_shiftLeft_eight, zeroExtend_shiftLeft_eight, BitVec.toNat_ofNat, BitVec.toNat_ofNat] at hnum
  have ha := a.isLt
  have hb := b.isLt
  apply BitVec.eq_of_toNat_eq
  omega

theorem crcFrom_injective (bs : List Byte) : Function.Injective fun c => crcFrom poly c bs := by
  induction bs with
  | nil => exact Function.injective_id
  | cons b bs ih => exact ih.comp (crcByte_injective_left hp b)

/-- Changing one byte changes the code: the register differs after that byte, and no later byte undoes it. -/
theorem crcFrom_modify_ne (c : Word) {bytes : List Byte} {i : Nat} (hi : i < bytes.length) {f : Byte → Byte}
    (hf : ∀ b, f b ≠ b) : crcFrom poly c (bytes.modify i f) ≠ crcFrom poly c bytes := by
  induction bytes generalizing c i with
  | nil => cases hi
  | cons b bs ih =>
    cases i with
    | zero => exact fun h => hf b (crcByte_injective_right hp c (crcFrom_injective hp bs h))
    | succ i => exact ih _ (Nat.lt_of_succ_lt_succ hi)

end

/-- Flipping a bit of a byte changes it. -/
theorem xor_bit_ne {j : Nat} (hj : j < 8) (b : Byte) : b ^^^ (1#8 <<< j) ≠ b := by
  intro h
  have hbit := congrArg (BitVec.getLsbD · j) h
  simp [hj] at hbit

end Sys2Proof.Machine
end

section
/-! SUPPORT. A packet up to the comparison of its code, and its rejection (R97 to R103, R110, R116), with the state written out; a single
flipped bit is such a rejection (R86). -/

namespace Sys2Proof.Machine

variable {s : State}

/-- A block read back is the block written. -/
theorem State.bufSpan_of_writeAll {m : List Host.Cell} {a : Nat} {bytes : List Byte} (h : s.buf = Memory.writeAll m a bytes) :
    s.bufSpan a bytes.length = bytes := by
  refine List.ext_getElem (by simp) fun k hk hk' => ?_
  simp [State.bufSpan, State.bufByte, h, Memory.read_writeAll, hk']

/-- A payload byte is stored at `WOFF + BCNT` and counted; the 128th advances `WOFF` and ends the payload (R99, R100). -/
theorem payloadByte_eq (hroom : s.woff + 128 ≤ s.cfg.bufSize) (b : Byte) :
    payloadByte b s = .next
      (if s.bcnt = 127 then
        { s with buf := Memory.write s.buf (s.woff + s.bcnt.toNat) b, bcnt := 0, woff := s.woff + 128, ctl := .payCrcHi }
      else { s with buf := Memory.write s.buf (s.woff + s.bcnt.toNat) b, bcnt := s.bcnt + 1 }) := by
  have hb : s.bcnt.toNat < 128 := s.bcnt.isLt
  have hidx : s.cfg.inBuf (s.woff + s.bcnt.toNat) 1 = true := (Config.inBuf_iff _ _ _).2 (by omega)
  rw [payloadByte, bufWrite, if_pos hidx, andThen_next, ← State.woffUp_eq hroom]
  rfl

/-- The bytes that are left of a payload are stored one after another, and the last one advances `WOFF` (R99, R100). -/
theorem rcvBytes_payload (payload : List Byte) (hc : s.ctl = .payData) (hn : s.bcnt.toNat + payload.length = 128)
    (hroom : s.woff + 128 ≤ s.cfg.bufSize) :
    rcvBytes payload s = .next { s with buf := Memory.writeAll s.buf (s.woff + s.bcnt.toNat) payload, bcnt := 0
                                        woff := s.woff + 128, ctl := .payCrcHi } := by
  induction payload generalizing s with
  | nil => have hb : s.bcnt.toNat < 128 := s.bcnt.isLt; simp at hn; omega
  | cons b bs ih =>
    rw [List.length_cons] at hn
    rw [rcvBytes, rcvByte_of_payData hc, payloadByte_eq hroom, andThen_next]
    by_cases hlast : s.bcnt = 127
    · obtain rfl : bs = [] := by
        have h127 : s.bcnt.toNat = 127 := by rw [hlast]; rfl
        exact List.length_eq_zero_iff.1 (by omega)
      rw [if_pos hlast]
      rfl
    · have hsucc := bcnt_succ hlast
      have hleft : (s.bcnt + 1).toNat + bs.length = 128 := by omega
      rw [if_neg hlast]
      refine (ih ?_ hleft ?_).trans ?_
      · exact hc
      · exact hroom
      · rw [hsucc]
        rfl

/-- What a packet's bytes leave before the code is computed (R98 to R102): the payload stored, `WOFF` past it, the received code. -/
def State.withReceived (s : State) (payload : List Byte) (hi lo : Byte) : State :=
  { s with buf := Memory.writeAll s.buf s.woff payload, bcnt := 0, woff := s.woff + 128, rxHi := hi, rxLo := lo, ctl := .validating }

/-- The same with the code of the payload computed (R103), before the comparison. -/
def State.withValidated (s : State) (payload : List Byte) (hi lo : Byte) : State :=
  { s.withReceived payload hi lo with crcv := crc16 s.cfg payload }

/-- After a mismatch the exception is handled, and nothing else follows (R110, R192). -/
theorem conclude_of_rejecting (h : s.receiverAt .rejecting = true) : conclude s = .next s.returnFromMismatch := by
  obtain ⟨-, hc⟩ := (s.receiverAt_iff _).1 h
  rw [conclude, if_neg (by rw [hc]; exact Ctl.noConfusion), execNak, if_pos h]

section
variable (hm : s.receiverAtMark = true) {payload : List Byte} (hl : payload.length = 128) (hroom : s.woff + 128 ≤ s.cfg.bufSize)

include hm hl hroom in
/-- The bytes of a packet at a marker position, with any header (R97 to R102). -/
theorem rcvBytes_packet (seq cmp hi lo : Byte) :
    rcvBytes (symSOH :: packetBody seq cmp payload hi lo) s = .next (s.withReceived payload hi lo) := by
  have hpay := rcvBytes_payload (s := { s with bcnt := 0, ctl := .payData }) payload rfl ((Nat.zero_add _).trans hl) hroom
  rw [rcvBytes_packet_header hm, rcvBytes_append, hpay]
  rfl

include hl in
/-- The span validated is the payload just received (R103). -/
theorem State.withReceived_validSpan (hi lo : Byte) : (s.withReceived payload hi lo).validSpan = payload := by
  change State.bufSpan _ (s.woff + 128 - 128) 128 = payload
  rw [Nat.add_sub_cancel, ← hl]
  exact State.bufSpan_of_writeAll rfl

include hl hroom in
/-- Validating the packet just received computes the code of its payload and compares (R103). -/
theorem validate_withReceived (hi lo : Byte) :
    validate (s.withReceived payload hi lo) = .next (s.withValidated payload hi lo).judge := by
  have hspan : (s.withReceived payload hi lo).spanInBuf = true := by
    simpa [State.spanInBuf, Config.inBuf_iff, State.withReceived, blockSize] using hroom
  refine validate_eq_next.2 ⟨hspan, ?_⟩
  rw [State.withReceived_validSpan hl]
  rfl

include hm hl hroom in
/-- A whole packet is what follows the comparison of its code with the received one (R116). -/
theorem exec_soh_eq_conclude (seq cmp hi lo : Byte) :
    exec (.soh seq cmp payload hi lo) s = conclude (s.withValidated payload hi lo).judge := by
  have hlen : payload.length = blockSize := hl
  change execSoh seq cmp payload hi lo s = _
  rw [execSoh, if_pos hlen, if_pos hm, rcvBytes_packet hm hl hroom, andThen_next, validate_withReceived hl hroom, andThen_next]

include hm hl hroom in
/-- A wrong code raises the exception, and its handling takes `WOFF` back to where it was (R103, R110). -/
theorem exec_soh_of_wrongCode {hi lo : Byte} (hcode : crc16 s.cfg payload ≠ codeOf hi lo) (seq cmp : Byte) :
    exec (.soh seq cmp payload hi lo) s = .next (s.withReject payload hi lo) := by
  obtain ⟨hidle, -⟩ := s.receiverAtMark_iff.1 hm
  have hjudge : (s.withValidated payload hi lo).judge = (s.withValidated payload hi lo).takeMismatch := if_neg hcode
  have hat : (s.withValidated payload hi lo).takeMismatch.receiverAt .rejecting = true :=
    (State.receiverAt_iff _ _).2 ⟨hidle, rfl⟩
  have hdown : (s.withValidated payload hi lo).takeMismatch.woffDown = s.woff :=
    (State.woffDown_eq (Nat.le_add_left 128 s.woff) hroom).trans (Nat.add_sub_cancel ..)
  rw [exec_soh_eq_conclude hm hl hroom, hjudge, conclude_of_rejecting hat, State.returnFromMismatch, hdown]
  rfl

end

/-- Settles O24: the flipped bit changes the code, so the code of the original payload is a wrong one. -/
theorem singleBitErrorIsRejected : Obligations.SingleBitErrorIsRejected := by
  unfold Obligations.SingleBitErrorIsRejected
  intro s seq cmp payload i j _ hm hl hroom hpoly hi hj
  refine exec_soh_of_wrongCode hm ((List.length_modify ..).trans hl) hroom ?_ seq cmp
  rw [codeOf_eq_wordOf, wordOf_lowByte_highByte]
  exact crcFrom_modify_ne hpoly _ (hl ▸ hi) (xor_bit_ne hj)

end Sys2Proof.Machine
end

section
/-! SUPPORT. What the page size says of the pages of a flush and of the words of a page (R8, R105). -/

namespace Sys2Proof

variable {c : Config}

/-- A flush has two pages for a page of 64 bytes, one otherwise (R105). -/
theorem Config.nPages_of_small (h : c.pageSize = 64) : c.nPages = 2 := by
  rw [Config.nPages, h]
  rfl

theorem Config.nPages_of_large (ha : c.admitted = true) (h : c.pageSize ≠ 64) : c.nPages = 1 :=
  if_neg (Nat.not_lt.2 ((Config.pageSize_cases ha).resolve_left h).1)

theorem Config.pageWords_pos (ha : c.admitted = true) : 0 < c.pageWords := by
  have hwords := Config.pageWords_mul ha
  have hpage := Config.pageSize_cases ha
  omega

end Sys2Proof
end

section
/-! SUPPORT. The block's fine steps with an empty script (R90 to R107): which operation a step is at each phase, with the next state
written out; and the block's moves that are not enabled (R91, R92, R113). -/

namespace Sys2Proof.Machine

variable {s : State}

/-! ## The Receiver's step at a phase -/

/-- At a phase that waits for nothing the block may step (R90). -/
theorem State.rcvEnabled_of_receiverAt {ph : Ctl} (h : s.receiverAt ph = true) (hr : ph.reads = false)
    (hw : ph ≠ .awaitHold ∧ ph ≠ .termEnd) : s.rcvEnabled = true := by
  obtain ⟨hidle, hc⟩ := (s.receiverAt_iff _).1 h
  cases ph <;> simp_all [State.rcvEnabled, Ctl.reads]

/-- At a phase that reads the block may step when a byte is waiting (R91). -/
theorem State.rcvEnabled_of_reads {b : Byte} {rest : List Byte} (hidle : s.ppStep = .idle) (hr : s.ctl.reads = true)
    (hq : s.rxq = b :: rest) : s.rcvEnabled = true := by
  cases hc : s.ctl <;> simp_all [State.rcvEnabled, Ctl.reads]

/-- With an empty script the step at a phase that waits for nothing is the Receiver's. -/
theorem step_of_receiverAt {ph : Ctl} (ha : s.cfg.admitted = true) (hs : s.script = []) (h : s.receiverAt ph = true)
    (hr : ph.reads = false) (hw : ph ≠ .awaitHold ∧ ph ≠ .termEnd) : step s = receiverStep s := by
  rw [step_rcv ha hs (s.rcvEnabled_of_receiverAt h hr hw), rcvStep_idle ((s.receiverAt_iff _).1 h).1]

/-- At a phase that reads, the Receiver's step is its reading step (R91). -/
theorem receiverStep_of_reads (hr : s.ctl.reads = true) : receiverStep s = rcvRead s := by
  unfold receiverStep
  cases hc : s.ctl <;> simp only [hc, Ctl.reads, Bool.false_eq_true] at hr <;> rfl

/-- At a phase that reads, with a byte waiting, the step takes it (R91). -/
theorem step_of_reads {b : Byte} {rest : List Byte} (ha : s.cfg.admitted = true) (hs : s.script = []) (hidle : s.ppStep = .idle)
    (hr : s.ctl.reads = true) (hq : s.rxq = b :: rest) : step s = rcvByte b { s with rxq := rest } := by
  rw [step_rcv ha hs (s.rcvEnabled_of_reads hidle hr hq), rcvStep_idle hidle, receiverStep_of_reads hr, rcvRead_cons hq]

/-- A byte at either marker position is classified (R94 to R96). -/
theorem rcvByte_of_atMark (hm : s.receiverAtMark = true) (b : Byte) : rcvByte b s = .next (s.marker b) := by
  obtain ⟨-, hc | hc⟩ := s.receiverAtMark_iff.1 hm <;> simp only [rcvByte, hc]

/-- Settles O13: the byte is taken, and the three cases are the classification's. -/
theorem markerIsClassified : Obligations.MarkerIsClassified := by
  unfold Obligations.MarkerIsClassified
  intro s b rest ha hs hm hq
  obtain ⟨hidle, hc⟩ := s.receiverAtMark_iff.1 hm
  have hr : s.ctl.reads = true := by obtain hc | hc := hc <;> rw [hc] <;> rfl
  have hstep : step s = .next (State.marker { s with rxq := rest } b) :=
    (step_of_reads ha hs hidle hr hq).trans (rcvByte_of_atMark (s := { s with rxq := rest }) hm b)
  rw [hstep]
  refine ⟨fun hb => ?_, fun hb => ?_, fun hsoh heot => ?_⟩
  · subst hb; rfl
  · subst hb; rfl
  · exact congrArg _ ((if_neg hsoh).trans (if_neg heot))

/-- Settles O14: neither header byte reaches a register; the second starts the count. -/
theorem headerBytesAreDiscarded : Obligations.HeaderBytesAreDiscarded := by
  unfold Obligations.HeaderBytesAreDiscarded
  intro s b rest ha hs hidle hq
  refine ⟨fun hc => ?_, fun hc => ?_⟩
  · rw [step_of_reads ha hs hidle (by rw [hc]; rfl) hq]
    simp only [rcvByte, hc, State.goto]
  · rw [step_of_reads ha hs hidle (by rw [hc]; rfl) hq]
    simp only [rcvByte, hc]

/-- Settles O15: the byte goes to `WOFF + BCNT`, and the count tells whether it is the 128th. -/
theorem payloadByteIsStored : Obligations.PayloadByteIsStored := by
  unfold Obligations.PayloadByteIsStored
  intro s b rest ha hs hidle hc hq hroom
  have hstep : step s = payloadByte b { s with rxq := rest } :=
    (step_of_reads ha hs hidle (by rw [hc]; rfl) hq).trans (rcvByte_of_payData (s := { s with rxq := rest }) hc b)
  rw [hstep, payloadByte_eq (s := { s with rxq := rest }) hroom]
  refine ⟨fun hlt => ?_, fun hlast => ?_⟩
  · have hne : s.bcnt ≠ 127 := by rintro h; rw [h] at hlt; exact absurd hlt (by decide)
    rw [if_neg hne]
  · have heq : s.bcnt = 127 := BitVec.eq_of_toNat_eq hlast
    rw [if_pos heq, heq]
    rfl

/-- Settles O16: each code byte goes to its register. -/
theorem codeBytesAreLatched : Obligations.CodeBytesAreLatched := by
  unfold Obligations.CodeBytesAreLatched
  intro s b rest ha hs hidle hq
  refine ⟨fun hc => ?_, fun hc => ?_⟩
  · rw [step_of_reads ha hs hidle (by rw [hc]; rfl) hq]
    simp only [rcvByte, hc]
  · rw [step_of_reads ha hs hidle (by rw [hc]; rfl) hq]
    simp only [rcvByte, hc]

/-! ## Validating and the flush -/

/-- Settles O17: the span's code is compared with the received one, whose high byte weighs 256. -/
theorem validatingComparesTheCode : Obligations.ValidatingComparesTheCode := by
  unfold Obligations.ValidatingComparesTheCode
  intro s ha hs h hlo hhi
  obtain ⟨-, hc⟩ := (s.receiverAt_iff _).1 h
  have hstep : step s = validate s := by
    rw [step_of_receiverAt ha hs h rfl (by decide), receiverStep, hc]
  have hcode : (crc16 s.cfg s.validSpan).toNat = 256 * s.rxHi.toNat + s.rxLo.toNat ↔
      crc16 s.cfg s.validSpan = codeOf s.rxHi s.rxLo := by
    rw [← BitVec.toNat_inj, codeOf_eq_wordOf, wordOf_toNat, Nat.add_comm]
  rw [hstep, validate_eq_next.2 ⟨State.spanInBuf_of hlo hhi, rfl⟩]
  change _ = Host.Outcome.next { s with
    crcv := crc16 s.cfg s.validSpan
    ctl := if (crc16 s.cfg s.validSpan).toNat = 256 * s.rxHi.toNat + s.rxLo.toNat then .ackCheck else .rejecting }
  simp only [hcode, State.judge]
  split_ifs <;> rfl

/-- Settles O18: the check is the comparison of `WOFF` with the page size. -/
theorem flushCheckComparesWithThePage : Obligations.FlushCheckComparesWithThePage := by
  unfold Obligations.FlushCheckComparesWithThePage
  intro s ha hs h
  obtain ⟨-, hc⟩ := (s.receiverAt_iff _).1 h
  rw [step_of_receiverAt ha hs h rfl (by decide), receiverStep, hc]
  refine ⟨fun hfull => ?_, fun hroom => ?_⟩
  · simp only [State.flushCheck, if_pos hfull]
  · simp only [State.flushCheck, if_neg (Nat.not_le.2 hroom)]
    rfl

/-- Settles O19: the guard decides, and inside the region the commit is invoked on `TADDR` and its slice. -/
theorem flushStartsOrFaultsAtTheBound : Obligations.FlushStartsOrFaultsAtTheBound := by
  unfold Obligations.FlushStartsOrFaultsAtTheBound
  intro s ha hs h
  obtain ⟨-, hc⟩ := (s.receiverAt_iff _).1 h
  have hstep : step s = flushStart s := by
    rw [step_of_receiverAt ha hs h rfl (by decide), receiverStep, hc]
  rw [hstep, flushStart]
  refine ⟨fun hin => ?_, fun hout => ?_⟩
  · rw [flushGuard_eq_next.2 ⟨hin, rfl⟩]
    rfl
  · rw [flushGuard_eq_fault.2 ⟨hout, rfl⟩]
    rfl

/-- The advance inside the application region: the address does not wrap, and the count tells whether pages are left (R106, R107). -/
theorem State.flushAdvance_eq (ha : s.cfg.admitted = true) (hin : s.taddr + s.cfg.pageSize ≤ s.cfg.appLimit) :
    s.flushAdvance =
      if (s.flushK + 1).toNat = s.cfg.nPages then
        { s with taddr := s.taddr + s.cfg.pageSize, flushK := s.flushK + 1, woff := 0, ctl := .ackSend }
      else { s with taddr := s.taddr + s.cfg.pageSize, flushK := s.flushK + 1, ctl := .ackFlush } := by
  rw [State.flushAdvance, State.taddrNext_eq ha hin]

/-- Settles O20: the next page of two, the second of two, or the only page. -/
theorem flushAdvancesPageByPage : Obligations.FlushAdvancesPageByPage := by
  unfold Obligations.FlushAdvancesPageByPage
  intro s ha hs h hin
  obtain ⟨-, hc⟩ := (s.receiverAt_iff _).1 h
  have hstep : step s = .next s.flushAdvance := by
    rw [step_of_receiverAt ha hs h rfl (by decide), receiverStep, hc]
  rw [hstep, State.flushAdvance_eq ha hin]
  refine ⟨fun h64 hk => ?_, fun h64 hk => ?_, fun h64 hk => ?_⟩
  · rw [hk, Config.nPages_of_small h64, h64]
    rfl
  · rw [hk, Config.nPages_of_small h64, h64]
    rfl
  · rw [hk, Config.nPages_of_large ha h64]
    rfl

/-! ## `start`, and the moves that are not enabled -/

/-- Settles O2: `start` acts at `HOLD` alone. -/
theorem startCreatesTheSession : Obligations.StartCreatesTheSession := by
  unfold Obligations.StartCreatesTheSession
  intro s
  refine ⟨fun h => ?_, fun h => ?_⟩
  · rw [runEvent, State.bootStart, if_pos h]
  · rw [runEvent, State.bootStart, h]
    rfl

/-- A wait step stays while the controller is busy (R132, R134, R137). -/
theorem waitReady_busy {go : State → State} (hb : s.nvmBusy = true) : waitReady go s = .next s := by
  rw [waitReady_eq, if_pos hb]

/-- Settles O7: a reading phase has no byte to read, `HOLD` and `END` have no step, and a wait step waits. -/
theorem blockedStepChangesNothing : Obligations.BlockedStepChangesNothing := by
  unfold Obligations.BlockedStepChangesNothing
  intro s h
  change rcvStep s = .next s
  obtain ⟨hidle, ⟨hr, hq⟩ | hc | hc⟩ | ⟨hp, hb⟩ := h
  · rw [rcvStep_idle hidle, receiverStep_of_reads hr, rcvRead, hq]
  · rw [rcvStep_idle hidle, receiverStep, hc]
  · rw [rcvStep_idle hidle, receiverStep, hc]
  · have hrun : s.ppStep ≠ .idle := by obtain hp | hp | hp := hp <;> rw [hp] <;> decide
    rw [rcvStep_running hrun, ppStep]
    obtain hp | hp | hp := hp <;> rw [hp] <;> exact waitReady_busy hb

end Sys2Proof.Machine
end

section
/-! SUPPORT. The symbols sent and the end of transmission (R93, R108, R110, R112, R117), with the next state written out, and the
block's step where an instruction is issued. -/

namespace Sys2Proof.Machine

variable {s t : State}

/-! ## The symbols sent -/

/-- Settles O8: `CRQ` is enabled at `REQ`. -/
theorem crqSendsTheModeRequest : Obligations.CrqSendsTheModeRequest := by
  unfold Obligations.CrqSendsTheModeRequest
  intro s h
  exact if_pos h

/-- Settles O9: `ACK` is enabled at `Acknowledging`/`SEND`. -/
theorem ackAnswersAnAcceptedPacket : Obligations.AckAnswersAnAcceptedPacket := by
  unfold Obligations.AckAnswersAnAcceptedPacket
  intro s h
  exact if_pos h

/-- Settles O10: `ACK` is enabled at `Terminal`/`SEND`, where it ends the session. -/
theorem ackEndsTheSession : Obligations.AckEndsTheSession := by
  unfold Obligations.AckEndsTheSession
  intro s h
  obtain ⟨-, hc⟩ := (s.receiverAt_iff _).1 h
  have hn : ¬ s.receiverAt .ackSend = true := by simp [State.receiverAt_iff, hc]
  exact (if_neg hn).trans (if_pos h)

/-- Settles O11: the roll back does not go below 0. -/
theorem nakRollsTheOffsetBack : Obligations.NakRollsTheOffsetBack := by
  unfold Obligations.NakRollsTheOffsetBack
  intro s h hlo hhi
  refine (if_pos h).trans ?_
  rw [State.returnFromMismatch, State.woffDown_eq hlo hhi]
  simp only [State.txByte, State.goto, symNAK]

/-! ## `EOT` -/

/-- `EOT` at a marker position: the marker leads to `Terminal`/`SEND`, and the final `ACK` ends the session (R95, R112). -/
theorem exec_eot (hm : s.receiverAtMark = true) :
    exec .eot s = .next { s with txq := s.txq ++ [0x06], done := true, ctl := .termEnd } := by
  obtain ⟨hidle, -⟩ := s.receiverAtMark_iff.1 hm
  have hsend : (s.goto .termSend).receiverAt .termSend = true := (State.receiverAt_iff _ _).2 ⟨hidle, rfl⟩
  change execEot s = _
  rw [execEot, if_pos hm, rcvByte_of_atMark hm]
  exact ackEndsTheSession _ hsend

/-- Settles O12: the byte 04 decodes to `EOT`, and the step takes it. -/
theorem eotEndsTheSession : Obligations.EotEndsTheSession := by
  unfold Obligations.EotEndsTheSession
  intro s hm
  refine ⟨exec_eot hm, fun rest ha hq es hs => ?_⟩
  have hdec : decode s.cfg .received s.rxq = .ok (.eot, rest) := by rw [hq]; rfl
  rw [stepRunsTheWireUnit s .eot rest es ha hs hm hdec]
  exact exec_eot (s := { s with script := es, rxq := rest }) hm

/-! ## The instruction that starts here -/

/-- A command of the Page Programmer starts where its step is enabled, and nothing comes before its meaning. -/
theorem enabled_of_fetchCommand {i : Instr} (h : s.fetchCommand = some i) :
    s.rcvEnabled = true ∧ beforeExec i s = .next s := by
  unfold State.fetchCommand at h
  cases hp : s.ppStep <;> simp only [hp] at h
  case s3 | s6 | s8 => cases h; exact ⟨by simp [State.rcvEnabled, hp], rfl⟩
  case s5 =>
    split_ifs at h
    cases h
    exact ⟨by simp [State.rcvEnabled, hp], rfl⟩
  all_goals cases h

/-- What starts at a state: an instruction that is the block's one fine step, a page of a flush, or the wire unit at the front of
`RXQ`. -/
theorem fetch_cases {i : Instr} (h : fetch s = some i) :
    (s.rcvEnabled = true ∧ beforeExec i s = .next s ∧ runInstr i s = rcvStep s) ∨
    (s.receiverAt .ackFlush = true ∧ i = .commit s.taddr s.flushSrc) ∨
    (s.receiverAtMark = true ∧ ∃ rest, decodeReceived s.rxq = .ok (i, rest)) := by
  unfold fetch at h
  split_ifs at h with hidle
  · have hrun := runInstr_fetchReceiver h
    rw [← rcvStep_idle hidle] at hrun
    unfold State.fetchReceiver at h
    cases hc : s.ctl <;> simp only [hc] at h
    case awaitReq | ackSend | termSend | rejecting =>
      simp only [hc, reduceCtorEq, false_and, or_self, or_false] at hrun
      cases h
      exact .inl ⟨by simp [State.rcvEnabled, hidle, hc], rfl, hrun⟩
    case validating =>
      simp only [hc, reduceCtorEq, false_and, or_self, or_false] at hrun
      split_ifs at h
      cases h
      exact .inl ⟨by simp [State.rcvEnabled, hidle, hc], rfl, hrun⟩
    case ackFlush => cases h; exact .inr (.inl ⟨(s.receiverAt_iff _).2 ⟨hidle, hc⟩, rfl⟩)
    case awaitMark | hdrMark =>
      refine .inr (.inr ⟨s.receiverAtMark_iff.2 ⟨hidle, by simp [hc]⟩, ?_⟩)
      unfold State.fetchWireUnit at h
      split at h
      · next hdec => cases h; exact ⟨_, hdec⟩
      · cases h
    all_goals cases h
  · obtain ⟨he, hb⟩ := enabled_of_fetchCommand h
    exact .inl ⟨he, hb, (runInstr_fetchCommand h).trans (rcvStep_running hidle).symm⟩

/-- Settles O5: what is issued is the fine step, run as the instruction; the start of a commit is the page of the flush. -/
theorem stepRunsTheIssuedInstruction : Obligations.StepRunsTheIssuedInstruction := by
  unfold Obligations.StepRunsTheIssuedInstruction
  intro s i ha hf
  refine ⟨fun hs hc hm => ?_, fun es a o hs hi => ?_⟩
  · obtain ⟨he, hb, hrun⟩ | ⟨-, hi⟩ | ⟨hm', -⟩ := fetch_cases hf
    · rw [step_rcv ha hs he, ← hrun, runInstr, hb, andThen_next]
    · exact absurd hi (hc _ _)
    · exact absurd hm' (by simp [hm])
  · subst hi
    exact (step_script ha hs).trans (unitStep_some (s := { s with script := es }) hf)

end Sys2Proof.Machine
end

section
/-! SUPPORT. A whole commit with the next state written out (R130 to R141): the words staged are the slice of `BUF`, and the page holds
them after the write, byte by byte. -/

namespace Sys2Proof.Machine

variable {s : State}

/-! ## The controller's completions -/

/-- With at most a foreign operation outstanding, the completion leaves the controller idle and nothing else (R156; log 30). -/
theorem State.nvmcComplete_of_noOwnOp (h : s.noOwnOp) : s.nvmcComplete = { s with nvmPend := none } := by
  obtain h | h := h
  · rw [State.nvmcComplete, h]
    simp only [← h]
  · rw [State.nvmcComplete, h]

/-- The completion of an erase (R156). -/
theorem State.nvmcComplete_of_erase {a : Nat} (h : s.nvmPend = some (.erase a)) :
    s.nvmcComplete =
      { s with nvm := Memory.writeAll s.nvm a (List.replicate s.cfg.pageSize s.cfg.erasedByte), nvmPend := none } := by
  rw [State.nvmcComplete, h]

/-- The completion of a write of an erased page (R156). -/
theorem State.nvmcComplete_of_write {a : Nat} (h : s.nvmPend = some (.write a)) (he : s.pageErased a = true) :
    s.nvmcComplete = { s with nvm := Memory.writeAll s.nvm a s.pwbBytes, nvmPend := none, pwb := [], pwbDraw := s.fresh
                              fresh := s.fresh + 1 } := by
  rw [State.nvmcComplete, h]
  simp only [State.nvmAfterWrite, State.nvmDrawAfterWrite, if_pos he]

/-- A page filled with `ERASED_BYTE` is an erased page. -/
theorem State.pageErased_of_erase {m : List Host.Cell} {a : Nat}
    (h : s.nvm = Memory.writeAll m a (List.replicate s.cfg.pageSize s.cfg.erasedByte)) : s.pageErased a = true := by
  simp only [State.pageErased, List.all_eq_true, List.mem_range, beq_iff_eq]
  intro k hk
  rw [h, Memory.read_writeAll, List.length_replicate, if_pos (by omega), List.getElem?_replicate, if_pos (by omega)]

/-! ## Staging -/

/-- Word `i` of the slice of `BUF` that a commit takes (R135). -/
def State.sourceWord (s : State) (i : Nat) : Word := wordOf (s.bufByte (s.ppSrc + 2 * i)) (s.bufByte (s.ppSrc + 2 * i + 1))

/-- Step 5 inside the page: one word of the slice is staged, and after the last one step 6 is next (R135). -/
theorem ppStage_eq (ha : s.cfg.admitted = true) (hb : s.nvmPend = none) (hlt : s.widx < s.cfg.pageWords)
    (hsrc : s.ppSrc + s.cfg.pageSize ≤ s.cfg.bufSize) :
    ppStage s = .next { s with pwb := Memory.write s.pwb s.widx (s.sourceWord s.widx), widx := s.widx + 1
                               ppStep := if s.widx + 1 = s.cfg.pageWords then .s6 else .s5 } := by
  have hwords := Config.pageWords_mul ha
  have hin : s.stageSrc + 2 ≤ s.cfg.bufSize := by rw [State.stageSrc]; omega
  have hoff : s.cfg.isFillOffset (2 * s.widx) = true := (Config.isFillOffset_iff _ _).2 ⟨by omega, by omega⟩
  have hnext : s.widxNext = s.widx + 1 := State.widxNext_eq hlt
  rw [ppStage_eq_next.2 ⟨(Config.inBuf_iff _ _ _).2 hin, State.nvmBusy_eq_false hb, hoff, rfl⟩, ← hnext]
  rfl

/-- Staging what is left of the page stages its words one after another and ends at step 6 (R135). -/
theorem stageWords_eq (n : Nat) (ha : s.cfg.admitted = true) (hb : s.nvmPend = none) (hn : s.widx + n = s.cfg.pageWords)
    (hpos : 0 < n) (hsrc : s.ppSrc + s.cfg.pageSize ≤ s.cfg.bufSize) :
    stageWords n s = .next
      { s with pwb := Memory.writeAll s.pwb s.widx ((List.range n).map fun k => s.sourceWord (s.widx + k))
               widx := s.cfg.pageWords, ppStep := .s6 } := by
  induction n generalizing s with
  | zero => exact absurd hpos (lt_irrefl 0)
  | succ n ih =>
    rw [stageWords, ppStage_eq ha hb (by omega) hsrc, andThen_next]
    by_cases hlast : s.widx + 1 = s.cfg.pageWords
    · obtain rfl : n = 0 := by omega
      rw [if_pos hlast, hlast]
      rfl
    · have hleft : s.widx + 1 + n = s.cfg.pageWords := by omega
      rw [if_neg hlast]
      refine (ih ?_ ?_ hleft (by omega) ?_).trans ?_
      · exact ha
      · exact hb
      · exact hsrc
      · rw [List.range_succ_eq_map, List.map_cons, List.map_map]
        simp only [Function.comp_def, Nat.succ_eq_add_one, Nat.add_right_comm _ 1, Nat.add_assoc]
        rfl

/-- Pairs of consecutive bytes are the bytes in order. -/
theorem flatMap_pairs (f : Nat → Byte) (n : Nat) :
    ((List.range n).flatMap fun i => [f (2 * i), f (2 * i + 1)]) = (List.range (2 * n)).map f := by
  induction n with
  | zero => rfl
  | succ n ih =>
    rw [List.range_succ, List.flatMap_append, ih, Nat.mul_add, List.range_succ, List.range_succ]
    simp

/-- A page write buffer with every word of the slice staged holds the slice, byte by byte in order (R42, R67). -/
theorem State.pwbBytes_of_staged (ha : s.cfg.admitted = true) {m : List (Nat × Word)}
    (h : s.pwb = Memory.writeAll m 0 ((List.range s.cfg.pageWords).map s.sourceWord)) :
    s.pwbBytes = s.bufSpan s.ppSrc s.cfg.pageSize := by
  have hword : ∀ i ∈ List.range s.cfg.pageWords, s.pwbWord i = s.sourceWord i := by
    intro i hi
    have hlt := List.mem_range.1 hi
    simp [State.pwbWord, h, Memory.read_writeAll, hlt]
  calc s.pwbBytes
      = (List.range s.cfg.pageWords).flatMap fun i =>
          [s.bufByte (s.ppSrc + 2 * i), s.bufByte (s.ppSrc + (2 * i + 1))] := by
        refine List.flatMap_congr fun i hi => ?_
        rw [hword i hi, State.sourceWord, lowByte_wordOf, highByte_wordOf]
        rfl
    _ = s.bufSpan s.ppSrc s.cfg.pageSize := by
        rw [flatMap_pairs fun k => s.bufByte (s.ppSrc + k), Config.pageWords_mul ha]
        rfl

/-! ## The whole commit -/

/-- Program memory after a commit: the page erased, then written with the slice of `BUF`. -/
def State.nvmWithPage (s : State) (a src : Nat) : List Host.Cell :=
  Memory.writeAll (Memory.writeAll s.nvm a (List.replicate s.cfg.pageSize s.cfg.erasedByte)) a (s.bufSpan src s.cfg.pageSize)

/-- What a commit of the page `a` from `BUF[src ..]` leaves at its return (R141). -/
def State.committed (s : State) (a src : Nat) : State :=
  { s with ppAddr := a, ppSrc := src, widx := s.cfg.pageWords, savedIe := s.ie, nvm := s.nvmWithPage a src, nvmPend := none
           rwwEn := true, pwb := [], pwbDraw := s.fresh, fresh := s.fresh + 1 }

/-- The page holds the slice, and every other byte stays (R42, R141). -/
theorem State.nvmWithPage_programmed (s : State) (a src : Nat) :
    s.programmed (s.nvmWithPage a src) a src s.cfg.pageSize := by
  intro x
  rw [State.nvmWithPage, Memory.read_writeAll, Memory.read_writeAll, State.bufSpan_length, List.length_replicate]
  split_ifs with hx
  · have hk : x - a < s.cfg.pageSize := by omega
    simp [State.bufSpan, hk]
  · rfl

/-- A commit between the completed erase of its page and the first word staged (R134). -/
def State.erasedFor (s : State) (a src : Nat) : State :=
  { s with ppAddr := a, ppSrc := src, savedIe := s.ie, ie := false, rwwEn := false, nvmPend := none, widx := 0, ppStep := .s5
           nvm := Memory.writeAll s.nvm a (List.replicate s.cfg.pageSize s.cfg.erasedByte) }

/-- The steps that issue a command to an idle controller, with the next state written out (R133, R136, R138). -/
theorem ppErase_eq (hb : s.nvmPend = none) (ha : s.cfg.isPageAddr s.ppAddr = true) :
    ppErase s = .next { s with rwwEn := false, nvmPend := some (.erase s.ppAddr), ppStep := .s4 } := by
  rw [ppErase, execNvmErase, startNvmOp_eq_next.2 ⟨State.nvmBusy_eq_false hb, ha, rfl⟩]
  rfl

theorem ppWrite_eq (hb : s.nvmPend = none) (ha : s.cfg.isPageAddr s.ppAddr = true) :
    ppWrite s = .next { s with rwwEn := false, nvmPend := some (.write s.ppAddr), ppStep := .s7 } := by
  rw [ppWrite, execNvmWrite, startNvmOp_eq_next.2 ⟨State.nvmBusy_eq_false hb, ha, rfl⟩]
  rfl

theorem ppRestoreRead_eq (hb : s.nvmPend = none) : ppRestoreRead s = .next { s with rwwEn := true, ppStep := .s9 } := by
  rw [ppRestoreRead, execNvmRwwen_eq_next.2 ⟨State.nvmBusy_eq_false hb, rfl⟩]
  rfl

/-- Steps 6 to 9, in the order of a commit (R136 to R139). -/
def writeStaged (s : State) : Result :=
  andThen (ppWrite s) <| thenComplete fun s => andThen (ppWaitWrite s) fun s => andThen (ppRestoreRead s) ppReturn

/-- Steps 1 to 4: interrupts off, the controller idle, the page erased; then the page is staged and written (R131 to R134). -/
theorem execCommit_eq_erased {a src : Nat} (hidle : s.ppStep = .idle) (hown : s.noOwnOp) (ha : s.cfg.isPageAddr a = true) :
    execCommit a src s = andThen (stageWords s.cfg.pageWords (s.erasedFor a src)) writeStaged := by
  have hown' : State.noOwnOp ((s.ppInvoke a src).suspendInterrupts.ppGoto .s2) := hown
  rw [execCommit, if_pos hidle, ppSuspend, andThen_next, thenComplete, State.nvmcComplete_of_noOwnOp hown', ppWaitController,
    waitReady_idle rfl, andThen_next, ppErase_eq rfl (by exact ha), andThen_next, thenComplete, State.nvmcComplete_of_erase rfl,
    ppWaitErase, waitReady_idle rfl, andThen_next]
  rfl

/-- Steps 6 to 9 with every word of the slice staged: the erased page gets the slice, reads are opened, `IE` is restored. -/
theorem writeStaged_eq {m : List Host.Cell} {p : List (Nat × Word)} (hadm : s.cfg.admitted = true) (hb : s.nvmPend = none)
    (ha : s.cfg.isPageAddr s.ppAddr = true)
    (hn : s.nvm = Memory.writeAll m s.ppAddr (List.replicate s.cfg.pageSize s.cfg.erasedByte))
    (hp : s.pwb = Memory.writeAll p 0 ((List.range s.cfg.pageWords).map s.sourceWord)) :
    writeStaged s = .next
      { s with nvm := Memory.writeAll s.nvm s.ppAddr (s.bufSpan s.ppSrc s.cfg.pageSize), rwwEn := true, pwb := []
               pwbDraw := s.fresh, fresh := s.fresh + 1, ie := s.savedIe, ppStep := .idle, nvmPend := none } := by
  have herased : s.pageErased s.ppAddr = true := State.pageErased_of_erase hn
  rw [writeStaged, ppWrite_eq hb ha, andThen_next, thenComplete, State.nvmcComplete_of_write rfl (by exact herased), ppWaitWrite,
    waitReady_idle rfl, andThen_next, ppRestoreRead_eq rfl, andThen_next, ← State.pwbBytes_of_staged hadm hp]
  rfl

/-- A commit at a page of the memory, from a slice that `BUF` has, to its return (R141). -/
theorem execCommit_eq {a src : Nat} (hadm : s.cfg.admitted = true) (hidle : s.ppStep = .idle) (hown : s.noOwnOp)
    (ha : s.cfg.isPageAddr a = true) (hsrc : src + s.cfg.pageSize ≤ s.cfg.bufSize) :
    execCommit a src s = .next (s.committed a src) := by
  have hpos := Config.pageWords_pos hadm
  rw [execCommit_eq_erased hidle hown ha,
    stageWords_eq (s := s.erasedFor a src) s.cfg.pageWords hadm rfl (Nat.zero_add _) hpos hsrc, andThen_next]
  refine (writeStaged_eq (m := s.nvm) (p := s.pwb) ?_ rfl ?_ rfl ?_).trans ?_
  · exact hadm
  · exact ha
  · change _ = Memory.writeAll s.pwb 0 (List.map (State.sourceWord (s.erasedFor a src)) _)
    simp only [State.erasedFor, Nat.zero_add]
  · rw [← hidle]
    rfl

end Sys2Proof.Machine
end

section
/-! SUPPORT. The whole packet with the next state written out (R116): rejected, stored and acknowledged, or stored, flushed page by page
and acknowledged (R104 to R110). -/

namespace Sys2Proof.Machine

variable {s : State}

/-- Settles O21: the state a rejected packet leaves, written out. -/
theorem wrongCodeIsRejected : Obligations.WrongCodeIsRejected := by
  unfold Obligations.WrongCodeIsRejected
  intro s seq cmp payload hi lo _ hm hl hroom hcode
  exact exec_soh_of_wrongCode hm hl hroom hcode seq cmp

/-! ## A right code -/

/-- What a packet with a right code leaves at the flush check (R103). -/
def State.withAccepted (s : State) (payload : List Byte) (hi lo : Byte) : State :=
  (s.withValidated payload hi lo).goto .ackCheck

/-- A packet with a right code is what follows the flush check (R116). -/
theorem exec_soh_of_rightCode (hm : s.receiverAtMark = true) {payload : List Byte} (hl : payload.length = 128)
    (hroom : s.woff + 128 ≤ s.cfg.bufSize) {hi lo : Byte} (hcode : crc16 s.cfg payload = codeOf hi lo) (seq cmp : Byte) :
    exec (.soh seq cmp payload hi lo) s = acknowledge (s.withAccepted payload hi lo) := by
  have hjudge : (s.withValidated payload hi lo).judge = s.withAccepted payload hi lo := if_pos hcode
  rw [exec_soh_eq_conclude hm hl hroom, hjudge]
  exact if_pos rfl

/-- Below the page size the acknowledge follows the check (R104). -/
theorem acknowledge_of_lt (h : s.woff < s.cfg.pageSize) : acknowledge s = execAck (s.goto .ackSend) := by
  have hcheck : s.flushCheck = s.goto .ackSend := if_neg (Nat.not_le.2 h)
  rw [acknowledge, hcheck]
  exact if_neg (by rw [State.goto_ctl]; decide)

/-- From the page size on, the pages of the flush come between (R104, R105). -/
theorem acknowledge_of_le (h : s.cfg.pageSize ≤ s.woff) :
    acknowledge s = andThen (flushPages s.cfg.nPages { s with flushK := 0, ctl := .ackFlush }) execAck := by
  have hcheck : s.flushCheck = { s with flushK := 0, ctl := .ackFlush } := if_pos h
  rw [acknowledge, hcheck]
  exact if_pos rfl

/-- Settles O22: the check leads to the acknowledge. -/
theorem acceptedPacketIsStored : Obligations.AcceptedPacketIsStored := by
  unfold Obligations.AcceptedPacketIsStored
  intro s seq cmp payload hi lo _ hm hl hlt hcode
  obtain ⟨hidle, -⟩ := s.receiverAtMark_iff.1 hm
  have hroom : s.woff + 128 ≤ s.cfg.bufSize := hlt.le.trans (Nat.le_max_left _ _)
  have hat : ((s.withAccepted payload hi lo).goto .ackSend).receiverAt .ackSend = true :=
    (State.receiverAt_iff _ _).2 ⟨hidle, rfl⟩
  rw [exec_soh_of_rightCode hm hl hroom hcode, acknowledge_of_lt hlt]
  exact ackAnswersAnAcceptedPacket _ hat

/-! ## The flush -/

/-- One page of a flush committed and counted; where the flush stands after it is the advance's (R105, R106, R141). -/
def State.pageFlushed (s : State) : State :=
  { s with taddr := s.taddr + s.cfg.pageSize, flushK := s.flushK + 1, ppAddr := s.taddr, ppSrc := s.flushSrc
           widx := s.cfg.pageWords, savedIe := s.ie, nvm := s.nvmWithPage s.taddr s.flushSrc, nvmPend := none, rwwEn := true
           pwb := [], pwbDraw := s.fresh, fresh := s.fresh + 1 }

/-- A page of a flush inside the application region: on to the next page, or, with the last one, to the acknowledge with `WOFF` at 0
(R107). -/
theorem flushPage_eq (ha : s.cfg.admitted = true) (hidle : s.ppStep = .idle) (hown : s.noOwnOp)
    (hmod : s.taddr % s.cfg.pageSize = 0) (hin : s.taddr + s.cfg.pageSize ≤ s.cfg.appLimit) (hk : s.flushK.toNat < s.cfg.nPages) :
    flushPage s = .next
      (if s.flushK.toNat + 1 = s.cfg.nPages then { s.pageFlushed with woff := 0, ctl := .ackSend }
       else s.pageFlushed.goto .ackFlush) := by
  have hsrc : s.flushSrc + s.cfg.pageSize ≤ s.cfg.bufSize := by
    rw [State.flushSrc, ← Nat.succ_mul, ← Config.nPages_mul ha]
    exact Nat.mul_le_mul_right _ hk
  have hcommit : execCommit (s.goto .ackAdv).taddr (s.goto .ackAdv).flushSrc (s.goto .ackAdv) =
      .next ((s.goto .ackAdv).committed s.taddr s.flushSrc) :=
    execCommit_eq ha hidle hown (Config.isPageAddr_of_region ha hmod hin) hsrc
  rw [flushPage, flushGuard_eq_next.2 ⟨hin, rfl⟩, andThen_next, hcommit, andThen_next,
    State.flushAdvance_eq (by exact ha) (by exact hin), ← flushK_succ s.cfg.nPages_le hk]
  rfl

/-- Two adjacent slices programmed one after the other are one slice programmed. -/
theorem State.programmed_add {t : State} {m m' : List Host.Cell} {a src n n' : Nat} (h : s.programmed m a src n)
    (ht : t.programmed m' (a + n) (src + n) n') (hnvm : t.nvm = m) (hbuf : t.bufByte = s.bufByte) :
    s.programmed m' a src (n + n') := by
  intro x
  rw [ht x, hnvm, hbuf, h x]
  by_cases hsecond : a + n ≤ x ∧ x < a + n + n'
  · have hoff : src + n + (x - (a + n)) = src + (x - a) := by omega
    rw [if_pos hsecond, if_pos (by omega), hoff]
  · rw [if_neg hsecond]
    by_cases hfirst : a ≤ x ∧ x < a + n
    · rw [if_pos hfirst, if_pos (by omega)]
    · rw [if_neg hfirst, if_neg (by omega)]

/-- What the pages of a flush leave, with `m` in program memory: the acknowledge is next (R107, R141). -/
def State.afterFlush (s : State) (m : List Host.Cell) : State :=
  { s with ctl := .ackSend, woff := 0, taddr := s.taddr + s.cfg.nPages * s.cfg.pageSize, flushK := BitVec.ofNat 2 s.cfg.nPages
           ppAddr := s.taddr + (s.cfg.nPages - 1) * s.cfg.pageSize, ppSrc := (s.cfg.nPages - 1) * s.cfg.pageSize
           widx := s.cfg.pageWords, savedIe := s.ie, nvm := m, nvmPend := none, rwwEn := true, pwb := []
           pwbDraw := s.fresh + (s.cfg.nPages - 1), fresh := s.fresh + s.cfg.nPages }

section
variable (ha : s.cfg.admitted = true) (hidle : s.ppStep = .idle) (hown : s.noOwnOp) (hmod : s.taddr % s.cfg.pageSize = 0)
  (hin : s.taddr + s.cfg.nPages * s.cfg.pageSize ≤ s.cfg.appLimit) (hk : s.flushK = 0)

include ha hidle hown hmod hin hk in
/-- The only page of a flush. -/
theorem flushPages_eq_one (hn : s.cfg.nPages = 1) :
    ∃ m, flushPages 1 s = .next (s.afterFlush m) ∧ s.programmed m s.taddr 0 s.cfg.pageSize := by
  have hzero : s.flushK.toNat = 0 := by rw [hk]; rfl
  have hsrc : s.flushSrc = 0 := by rw [State.flushSrc, hzero, Nat.zero_mul]
  rw [hn, Nat.one_mul] at hin
  have hpage := flushPage_eq ha hidle hown hmod hin (by omega)
  rw [if_pos (by omega)] at hpage
  refine ⟨s.nvmWithPage s.taddr 0, ?_, s.nvmWithPage_programmed s.taddr 0⟩
  rw [flushPages, hpage, andThen_next, flushPages, State.afterFlush, State.pageFlushed, hn, hsrc, hk]
  simp only [Nat.sub_self, Nat.zero_mul, Nat.one_mul]
  rfl

include ha hidle hown hmod hin hk in
/-- The two pages of a flush, one after the other. -/
theorem flushPages_eq_two (hn : s.cfg.nPages = 2) :
    ∃ m, flushPages 2 s = .next (s.afterFlush m) ∧ s.programmed m s.taddr 0 (s.cfg.pageSize + s.cfg.pageSize) := by
  have hzero : s.flushK.toNat = 0 := by rw [hk]; rfl
  have hsrc : s.flushSrc = 0 := by rw [State.flushSrc, hzero, Nat.zero_mul]
  have hone : (s.pageFlushed.goto .ackFlush).flushK.toNat = 1 := by rw [State.goto_flushK, State.pageFlushed, hk]; rfl
  have hn' : (s.pageFlushed.goto .ackFlush).cfg.nPages = 2 := hn
  have hsrc' : (s.pageFlushed.goto .ackFlush).flushSrc = s.cfg.pageSize := by
    rw [State.flushSrc, hone, Nat.one_mul]
    rfl
  rw [hn, Nat.two_mul, ← Nat.add_assoc] at hin
  have hpage := flushPage_eq ha hidle hown hmod (by omega) (by omega)
  rw [if_neg (by omega)] at hpage
  have hpage' := flushPage_eq (s := s.pageFlushed.goto .ackFlush) ha hidle (.inl rfl) ((Nat.add_mod_right _ _).trans hmod) hin
    (by omega)
  rw [if_pos (by omega)] at hpage'
  refine ⟨(s.pageFlushed.goto .ackFlush).nvmWithPage (s.taddr + s.cfg.pageSize) s.cfg.pageSize, ?_, ?_⟩
  · rw [flushPages, hpage, andThen_next, flushPages, hpage', andThen_next, flushPages, State.pageFlushed, hsrc',
      State.afterFlush, hn]
    simp only [State.pageFlushed, State.goto, hk, Nat.two_mul, Nat.add_assoc, Nat.one_mul, Nat.add_one_sub_one]
    rfl
  · refine State.programmed_add (t := s.pageFlushed.goto .ackFlush) (s.nvmWithPage_programmed s.taddr 0) ?_ ?_ rfl
    · rw [Nat.zero_add]
      exact State.nvmWithPage_programmed _ _ _
    · rw [← hsrc]
      rfl

include ha hidle hown hmod hin hk in
/-- All pages of a flush inside the application region: they hold the buffer from its start, and every other byte stays (R105, R141). -/
theorem flushPages_eq :
    ∃ m, flushPages s.cfg.nPages s = .next (s.afterFlush m) ∧ s.programmed m s.taddr 0 (s.cfg.nPages * s.cfg.pageSize) := by
  by_cases h64 : s.cfg.pageSize = 64
  · have hn := Config.nPages_of_small h64
    rw [hn, Nat.two_mul]
    exact flushPages_eq_two ha hidle hown hmod hin hk hn
  · have hn := Config.nPages_of_large ha h64
    rw [hn, Nat.one_mul]
    exact flushPages_eq_one ha hidle hown hmod hin hk hn

end

/-- Settles O23: the check starts the flush, its pages hold the buffer, and the acknowledge follows the last one. -/
theorem fullBufferIsCommittedThenAcknowledged : Obligations.FullBufferIsCommittedThenAcknowledged := by
  unfold Obligations.FullBufferIsCommittedThenAcknowledged
  intro s seq cmp payload hi lo ha hm hl hfull hcode hmod hin hown
  obtain ⟨hidle, -⟩ := s.receiverAtMark_iff.1 hm
  have hroom : s.woff + 128 ≤ s.cfg.bufSize := (hfull.trans (Config.nPages_mul ha)).le
  have hpage : s.cfg.pageSize ≤ s.woff + 128 := hfull ▸ Nat.le_mul_of_pos_left _ s.cfg.nPages_pos
  obtain ⟨m, hflush, hprog⟩ := flushPages_eq (s := { s.withAccepted payload hi lo with flushK := 0, ctl := .ackFlush })
    ha hidle hown hmod hin rfl
  refine ⟨m, ?_, hprog⟩
  rw [exec_soh_of_rightCode hm hl hroom hcode, acknowledge_of_le hpage]
  refine (congrArg (andThen · execAck) hflush).trans (ackAnswersAnAcceptedPacket _ ?_)
  exact (State.receiverAt_iff _ _).2 ⟨hidle, rfl⟩

end Sys2Proof.Machine
end

section
/-! SUPPORT. The streams are neither read nor written by what runs between two of their bytes: every operation of the block but the
reading of a byte and the sending of a symbol does the same with other streams (R30, R159). With it, a packet sent again after a
rejection ends as a right first attempt does (R119). -/

namespace Sys2Proof.Machine

variable {s t : State} {f g : State → Result}

/-- `s` with other streams. -/
def State.withStreams (s : State) (rx tx : List Byte) : State := { s with rxq := rx, txq := tx }

theorem State.withStreams_self {rx tx : List Byte} (hrx : s.rxq = rx) (htx : s.txq = tx) : s.withStreams rx tx = s := by
  subst hrx htx
  rfl

/-- An operation that does the same with any streams, and leaves them. -/
def Blind (f : State → Result) : Prop :=
  ∀ ⦃s t : State⦄ (rx tx : List Byte), f s = .next t → f (s.withStreams rx tx) = .next (t.withStreams rx tx)

/-! ## Sequences -/

theorem Blind.andThen (hf : Blind f) (hg : Blind g) : Blind fun s => andThen (f s) g := by
  intro s t rx tx h
  obtain ⟨u, hu, ht⟩ := andThen_eq_next.1 h
  exact andThen_eq_next.2 ⟨_, hf rx tx hu, hg rx tx ht⟩

/-- An update of fields that are no stream is blind. -/
theorem Blind.update {u : State → State} (hu : ∀ s rx tx, u (State.withStreams s rx tx) = (u s).withStreams rx tx) :
    Blind fun s => .next (u s) := by
  intro s t rx tx h
  obtain rfl := next_eq_next.1 h
  exact congrArg _ (hu s rx tx)

theorem State.nvmcComplete_withStreams (s : State) (rx tx : List Byte) :
    (s.withStreams rx tx).nvmcComplete = s.nvmcComplete.withStreams rx tx := by
  have hpend : (s.withStreams rx tx).nvmPend = s.nvmPend := rfl
  unfold State.nvmcComplete
  rw [hpend]
  obtain _ | _ | _ | _ := s.nvmPend <;> rfl

theorem Blind.thenComplete (hf : Blind f) : Blind (thenComplete f) := by
  intro s t rx tx h
  exact (congrArg f (s.nvmcComplete_withStreams rx tx)).trans (hf rx tx h)

/-! ## The Receiver's operations -/

theorem State.marker_withStreams (s : State) (b : Byte) (rx tx : List Byte) :
    (s.withStreams rx tx).marker b = (s.marker b).withStreams rx tx := by
  unfold State.marker
  split_ifs <;> rfl

theorem payloadByte_blind (b : Byte) : Blind (payloadByte b) := by
  intro s t rx tx h
  obtain ⟨u, hu, ht⟩ := andThen_eq_next.1 h
  obtain ⟨hi, rfl⟩ := bufWrite_eq_next.1 hu
  obtain rfl := next_eq_next.1 ht
  refine andThen_eq_next.2 ⟨_, bufWrite_eq_next.2 ⟨hi, rfl⟩, next_eq_next.2 ?_⟩
  by_cases hlast : s.bcnt = 127
  · rw [if_pos hlast]
    exact (if_pos hlast).symm
  · rw [if_neg hlast]
    exact (if_neg hlast).symm

/-- A byte already taken from `RXQ` is handled without looking at what waits behind it. -/
theorem rcvByte_blind (b : Byte) : Blind (rcvByte b) := by
  intro s t rx tx h
  have hctl : (s.withStreams rx tx).ctl = s.ctl := rfl
  unfold rcvByte at h ⊢
  rw [hctl]
  cases hc : s.ctl <;> simp only [hc] at h ⊢
  case awaitMark | hdrMark => exact Blind.update (u := (·.marker b)) (fun s => s.marker_withStreams b) rx tx h
  case payData => exact payloadByte_blind b rx tx h
  case hdrSeq | hdrCmp | payCrcHi | payCrcLo => cases h; rfl
  all_goals cases h

theorem State.flushCheck_withStreams (s : State) (rx tx : List Byte) :
    (s.withStreams rx tx).flushCheck = s.flushCheck.withStreams rx tx := by
  unfold State.flushCheck
  by_cases h : s.cfg.pageSize ≤ s.woff
  · rw [if_pos h]
    exact if_pos h
  · rw [if_neg h]
    exact if_neg h

theorem flushGuard_blind : Blind flushGuard := by
  intro s t rx tx h
  obtain ⟨hin, rfl⟩ := flushGuard_eq_next.1 h
  exact flushGuard_eq_next.2 ⟨hin, rfl⟩

theorem State.flushAdvance_withStreams (s : State) (rx tx : List Byte) :
    (s.withStreams rx tx).flushAdvance = s.flushAdvance.withStreams rx tx := by
  unfold State.flushAdvance
  by_cases h : (s.flushK + 1).toNat = s.cfg.nPages
  · rw [if_pos h]
    exact if_pos h
  · rw [if_neg h]
    exact if_neg h

/-! ## The Page Programmer's operations -/

theorem startNvmOp_blind (op : NvmOp) (a : Nat) : Blind (startNvmOp op a) := by
  intro s t rx tx h
  obtain ⟨hb, ha, rfl⟩ := startNvmOp_eq_next.1 h
  exact startNvmOp_eq_next.2 ⟨hb, ha, rfl⟩

theorem ppErase_blind : Blind ppErase := fun s _ rx tx h =>
  (startNvmOp_blind (.erase s.ppAddr) s.ppAddr).andThen (.update (u := (·.ppGoto .s4)) fun _ _ _ => rfl) rx tx h

theorem ppWrite_blind : Blind ppWrite := fun s _ rx tx h =>
  (startNvmOp_blind (.write s.ppAddr) s.ppAddr).andThen (.update (u := (·.ppGoto .s7)) fun _ _ _ => rfl) rx tx h

theorem ppRestoreRead_blind : Blind ppRestoreRead := by
  intro s t rx tx h
  obtain ⟨u, hu, ht⟩ := andThen_eq_next.1 h
  obtain ⟨hb, rfl⟩ := execNvmRwwen_eq_next.1 hu
  cases ht
  exact andThen_eq_next.2 ⟨_, execNvmRwwen_eq_next.2 ⟨hb, rfl⟩, rfl⟩

theorem waitReady_blind {go : State → State} (hgo : ∀ s rx tx, go (State.withStreams s rx tx) = (go s).withStreams rx tx) :
    Blind (waitReady go) := by
  refine Blind.update fun s rx tx => ?_
  by_cases h : s.nvmBusy = true
  · rw [if_pos h]
    exact if_pos h
  · rw [if_neg h, ← hgo]
    exact if_neg h

theorem ppStage_blind : Blind ppStage := by
  intro s t rx tx h
  obtain ⟨hin, hb, ho, rfl⟩ := ppStage_eq_next.1 h
  exact ppStage_eq_next.2 ⟨hin, hb, ho, rfl⟩

theorem stageWords_blind (n : Nat) : Blind (stageWords n) := by
  induction n with
  | zero => exact .update (u := id) fun _ _ _ => rfl
  | succ n ih => exact ppStage_blind.andThen ih

theorem writeStaged_blind : Blind writeStaged :=
  ppWrite_blind.andThen <| .thenComplete <| (waitReady_blind fun _ _ _ => rfl).andThen <| ppRestoreRead_blind.andThen <|
    .update (u := fun s => s.restoreInterrupts.ppGoto .idle) fun _ _ _ => rfl

theorem execCommit_blind (a src : Nat) : Blind (execCommit a src) := by
  have hsteps : Blind fun s => andThen (ppSuspend (s.ppInvoke a src)) <|
      thenComplete fun s => andThen (ppWaitController s) fun s => andThen (ppErase s) <|
      thenComplete fun s => andThen (ppWaitErase s) fun s => andThen (stageWords s.cfg.pageWords s) writeStaged :=
    (Blind.update (u := fun s => (s.ppInvoke a src).suspendInterrupts.ppGoto .s2) fun _ _ _ => rfl).andThen <|
      .thenComplete <| (waitReady_blind fun _ _ _ => rfl).andThen <| ppErase_blind.andThen <|
      .thenComplete <| (waitReady_blind fun _ _ _ => rfl).andThen <|
      Blind.andThen (f := fun s => stageWords s.cfg.pageWords s) (fun s _ rx tx => stageWords_blind s.cfg.pageWords rx tx)
        writeStaged_blind
  intro s t rx tx h
  unfold execCommit at h ⊢
  split_ifs at h with hidle
  exact (if_pos hidle).trans (hsteps rx tx h)

/-! ## The flush and the acknowledge -/

theorem flushPages_blind (n : Nat) : Blind (flushPages n) := by
  have hcommit : Blind fun s => execCommit s.taddr s.flushSrc s := fun s _ rx tx =>
    execCommit_blind s.taddr s.flushSrc rx tx
  have hpage : Blind flushPage :=
    flushGuard_blind.andThen <| hcommit.andThen <| .update (u := State.flushAdvance) State.flushAdvance_withStreams
  induction n with
  | zero => exact .update (u := id) fun _ _ _ => rfl
  | succ n ih => exact hpage.andThen ih

/-- What comes between an accepted packet and its `ACK`: the check, and the pages of the flush if there is one (R104 to R107). -/
def flushIfFull (s : State) : Result :=
  if s.flushCheck.ctl = .ackFlush then flushPages s.cfg.nPages s.flushCheck else .next s.flushCheck

theorem acknowledge_eq (s : State) : acknowledge s = andThen (flushIfFull s) execAck := by
  unfold acknowledge flushIfFull
  split_ifs <;> rfl

theorem flushIfFull_blind : Blind flushIfFull := by
  intro s t rx tx h
  unfold flushIfFull at h ⊢
  rw [State.flushCheck_withStreams]
  split_ifs at h with hf
  · exact (if_pos hf).trans (flushPages_blind _ rx tx h)
  · cases h
    exact if_neg hf

theorem flushIfFull_quiet (h : flushIfFull s = .next t) : s.Quiet True t := by
  unfold flushIfFull at h
  refine s.flushCheck_quiet.trans ?_
  split_ifs at h
  · exact flushPages_quiet h
  · cases h
    exact ⟨.of_frame rfl, rfl, rfl⟩

/-- An acknowledge appends `ACK` to what waits in `TXQ`, whatever waits there. -/
theorem execAck_withStreams (h : execAck s = .next t) (rx tx : List Byte) :
    t.txq = s.txq ++ [symACK] ∧ execAck (s.withStreams rx tx) = .next (t.withStreams rx (tx ++ [symACK])) := by
  unfold execAck at h ⊢
  split_ifs at h with hsend hend
  · cases h
    exact ⟨rfl, if_pos hsend⟩
  · cases h
    exact ⟨rfl, (if_neg hsend).trans (if_pos hend)⟩

/-- An accepted packet is flushed and acknowledged alike with any streams. -/
theorem acknowledge_withStreams (h : acknowledge s = .next t) (rx tx : List Byte) :
    t.rxq = s.rxq ∧ t.txq = s.txq ++ [symACK] ∧
      acknowledge (s.withStreams rx tx) = .next (t.withStreams rx (tx ++ [symACK])) := by
  rw [acknowledge_eq] at h
  obtain ⟨u, hu, ht⟩ := andThen_eq_next.1 h
  have hq := flushIfFull_quiet hu
  obtain ⟨htxq, hack⟩ := execAck_withStreams ht rx tx
  refine ⟨(execAck_outputs (w := True) ht).toLeaves.rxq.trans hq.rxq, htxq.trans (by rw [hq.txq]), ?_⟩
  rw [acknowledge_eq]
  exact andThen_eq_next.2 ⟨_, flushIfFull_blind rx tx hu, hack⟩

/-! ## A packet sent again -/

/-- Storing a block where it already stands changes nothing. -/
theorem Memory.writeAll_writeAll {α : Type} {m : List (Nat × α)} (h : Memory.wf m = true) (a : Nat) (vs : List α) :
    Memory.writeAll (Memory.writeAll m a vs) a vs = Memory.writeAll m a vs := by
  have hwf := Memory.wf_writeAll h a vs
  refine Memory.ext_of_wf (Memory.wf_writeAll hwf a vs) hwf fun x => ?_
  simp only [Memory.read_writeAll]
  split_ifs <;> rfl

/-- A packet is answered only at a marker position, and only with 128 payload bytes. -/
theorem enabled_of_execSoh {seq cmp hi lo : Byte} {payload : List Byte} (h : execSoh seq cmp payload hi lo s = .next t) :
    payload.length = 128 ∧ s.receiverAtMark = true := by
  unfold execSoh at h
  split_ifs at h with hl hm
  exact ⟨hl, hm⟩

/-- After a rejection of the same payload an accepted packet stands where it would have stood before, but for the `NAK` in `TXQ`. -/
theorem State.withAccepted_withReject (hwf : Memory.wf s.buf = true) (payload : List Byte) (hi lo hi' lo' : Byte) :
    (s.withReject payload hi' lo').withAccepted payload hi lo =
      (s.withAccepted payload hi lo).withStreams s.rxq (s.txq ++ [symNAK]) := by
  have hbuf := Memory.writeAll_writeAll hwf s.woff payload
  change State.withStreams { s.withAccepted payload hi lo with
    buf := Memory.writeAll (Memory.writeAll s.buf s.woff payload) s.woff payload } _ _ = _
  rw [hbuf]
  rfl

/-- Settles O25: the rejection leaves the payload where the retry puts it again, and the rest of the retry does not see the `NAK`. -/
theorem retryIsIdempotent : Obligations.RetryIsIdempotent := by
  unfold Obligations.RetryIsIdempotent
  intro s t seq cmp seq' cmp' payload hi lo hi' lo' _ hwf hroom hcode hcode' h
  obtain ⟨hl, hm⟩ := enabled_of_execSoh h
  obtain ⟨hidle, -⟩ := s.receiverAtMark_iff.1 hm
  have hmark : (s.withReject payload hi' lo').receiverAtMark = true := (State.receiverAtMark_iff _).2 ⟨hidle, .inr rfl⟩
  rw [exec_soh_of_rightCode hm hl hroom hcode] at h
  obtain ⟨hrxq, htxq, hretry⟩ := acknowledge_withStreams h s.rxq (s.txq ++ [symNAK])
  refine ⟨_, exec_soh_of_wrongCode hm hl hroom hcode' seq' cmp', rfl, rfl, rfl, htxq, ?_⟩
  rw [exec_soh_of_rightCode hmark hl hroom hcode, State.withAccepted_withReject hwf, hretry, State.withStreams, List.append_assoc]
  have hrx : s.rxq = t.rxq := hrxq.symm
  rw [hrx]
  rfl

end Sys2Proof.Machine
end

section
/-! SUPPORT. An instruction run whole and the block's fine steps (R116 to R118): with an empty script the machine moves by itself in its
default order (log 7), and reaches what the whole instruction answers. -/

namespace Sys2Proof.Machine

variable {s t u : State}

/-- Running by itself from `s`, in an admitted configuration with an empty script, the machine reaches `t`, and can go on so. -/
def State.Reaches (s t : State) : Prop :=
  s.cfg.admitted = true → s.script = [] →
    (∃ n, Host.Core.run Sys2Proof.core n s = .next t) ∧ t.cfg.admitted = true ∧ t.script = []

/-! ## Runs -/

/-- A run of one step more is that step and the rest of the run. -/
theorem run_succ (n : Nat) (s : State) :
    Host.Core.run Sys2Proof.core (n + 1) s = andThen (step s) (Host.Core.run Sys2Proof.core n) := by
  have hstep : Sys2Proof.core.step s = step s := rfl
  simp only [Host.Core.run]
  rw [hstep]
  cases step s <;> rfl

theorem run_add {m n : Nat} (h : Host.Core.run Sys2Proof.core m s = .next u) :
    Host.Core.run Sys2Proof.core (m + n) s = Host.Core.run Sys2Proof.core n u := by
  induction m generalizing s with
  | zero => cases h; rw [Nat.zero_add]
  | succ m ih =>
    obtain ⟨v, hv, hu⟩ := andThen_eq_next.1 ((run_succ m s).symm.trans h)
    rw [Nat.succ_add, run_succ, hv]
    exact ih hu

theorem State.Reaches.refl (s : State) : s.Reaches s := fun ha hs => ⟨⟨0, rfl⟩, ha, hs⟩

theorem State.Reaches.trans (h : s.Reaches t) (h' : t.Reaches u) : s.Reaches u := by
  intro ha hs
  obtain ⟨⟨m, hm⟩, ha, hs⟩ := h ha hs
  obtain ⟨⟨n, hn⟩, ha, hs⟩ := h' ha hs
  exact ⟨⟨m + n, (run_add hm).trans hn⟩, ha, hs⟩

/-- A step that keeps the configuration and the script. -/
theorem State.Reaches.of_step (h : s.cfg.admitted = true → s.script = [] → step s = .next t) (hc : t.cfg = s.cfg)
    (hscript : t.script = s.script) : s.Reaches t := by
  intro ha hs
  exact ⟨⟨1, by rw [run_succ, h ha hs]; rfl⟩, by rw [hc, ha], by rw [hscript, hs]⟩

/-- A fine step of the block, where it is enabled. -/
theorem State.Reaches.of_rcvStep (he : s.rcvEnabled = true) (h : rcvStep s = .next t) : s.Reaches t := by
  have hkeeps : t.cfg = s.cfg ∧ t.script = s.script := by
    by_cases hp : s.ppStep = .idle
    · rw [rcvStep_idle hp] at h
      rw [receiverStep_frame h]
      exact ⟨rfl, rfl⟩
    · rw [rcvStep_running hp] at h
      obtain ⟨-, rfl⟩ | hf := ppStep_cases h
      · exact ⟨rfl, rfl⟩
      · rw [hf]
        exact ⟨rfl, rfl⟩
  exact .of_step (fun ha hs => (step_rcv ha hs he).trans h) hkeeps.1 hkeeps.2

/-- A fine step of the Receiver at a phase that waits for nothing. -/
theorem State.Reaches.of_receiverStep {ph : Ctl} (hat : s.receiverAt ph = true) (h : receiverStep s = .next t)
    (hr : ph.reads = false := by rfl) (hw : ph ≠ .awaitHold ∧ ph ≠ .termEnd := by decide) : s.Reaches t :=
  .of_rcvStep (s.rcvEnabled_of_receiverAt hat hr hw) ((rcvStep_idle ((s.receiverAt_iff ph).1 hat).1).trans h)

/-! ## A commit -/

/-- The Page Programmer works from `s` to `t`, where it stands at `p`; the Receiver waits (R145). -/
structure State.Works (s : State) (p : PpStep) (t : State) : Prop where
  reaches : s.Reaches t
  stands : t.ppStep = p
  cfg : t.cfg = s.cfg
  ctl : t.ctl = s.ctl
  flushK : t.flushK = s.flushK

variable {p q : PpStep}

theorem State.Works.trans (h : s.Works p t) (h' : t.Works q u) : s.Works q u :=
  ⟨h.reaches.trans h'.reaches, h'.stands, h'.cfg.trans h.cfg, h'.ctl.trans h.ctl, h'.flushK.trans h.flushK⟩

/-- A step of the Page Programmer, where it is enabled. -/
theorem works_of_enabled (he : s.rcvEnabled = true) (hrun : s.ppStep ≠ .idle) (h : ppStep s = .next t) (hq : t.ppStep = q) :
    s.Works q t := by
  have hkeeps : t.cfg = s.cfg ∧ t.ctl = s.ctl ∧ t.flushK = s.flushK := by
    obtain ⟨-, rfl⟩ | hf := ppStep_cases h
    · exact ⟨rfl, rfl, rfl⟩
    · rw [hf]
      exact ⟨rfl, rfl, rfl⟩
  obtain ⟨hcfg, hctl, hflush⟩ := hkeeps
  exact ⟨.of_rcvStep he ((rcvStep_running hrun).trans h), hq, hcfg, hctl, hflush⟩

/-- A step that waits for nothing. -/
theorem works_of_ppStep (hs : s.ppStep = p) (h : ppStep s = .next t) (hq : t.ppStep = q)
    (hp : p ≠ .idle ∧ p ≠ .s2 ∧ p ≠ .s4 ∧ p ≠ .s7 := by decide) : s.Works q t := by
  obtain ⟨hidle, h2, h4, h7⟩ := hp
  refine works_of_enabled ?_ (hs ▸ hidle) h hq
  cases p <;> simp_all [State.rcvEnabled]

/-- At a wait step the controller completes what is outstanding, if anything is (R158). -/
theorem works_complete (hs : s.ppStep = p) (hp : p = .s2 ∨ p = .s4 ∨ p = .s7) : s.Works p s.nvmcComplete := by
  have hframe := s.nvmcComplete_frame
  have hreach : s.Reaches s.nvmcComplete := by
    cases hb : s.nvmBusy
    · have hsame : s.nvmcComplete = s := by rw [State.nvmcComplete, State.nvmPend_eq_none hb]
      rw [hsame]
      exact .refl s
    · have he : s.rcvEnabled = false := by obtain rfl | rfl | rfl := hp <;> simp [State.rcvEnabled, hs, hb]
      exact .of_step (fun ha hscript => step_complete ha hscript he hb) (by rw [hframe]) (by rw [hframe])
  exact ⟨hreach, by rw [hframe, hs], by rw [hframe], by rw [hframe], by rw [hframe]⟩

/-- A wait step goes on after the completion (R132, R134, R137). -/
theorem works_waitReady {go : State → State} (hs : s.ppStep = p) (hp : p = .s2 ∨ p = .s4 ∨ p = .s7)
    (hwait : ∀ u : State, u.ppStep = p → ppStep u = waitReady go u) (hgo : ∀ u, (go u).ppStep = q)
    (h : waitReady go s.nvmcComplete = .next t) : s.Works q t := by
  have hc := works_complete hs hp
  have hidle := s.nvmcComplete_nvmBusy
  have ht : t = go s.nvmcComplete := next_eq_next.1 ((waitReady_idle hidle).symm.trans h)
  refine hc.trans (works_of_enabled ?_ ?_ ((hwait _ hc.stands).trans h) (ht ▸ hgo _))
  · obtain rfl | rfl | rfl := hp <;> simp [State.rcvEnabled, hc.stands]
  · obtain rfl | rfl | rfl := hp <;> simp [hc.stands]

/-- What a step does last decides where the Page Programmer stands. -/
theorem ppStep_of_andThen_ppGoto {o : Result} (h : (andThen o fun u => .next (u.ppGoto q)) = .next t) : t.ppStep = q := by
  obtain ⟨u, -, ht⟩ := andThen_eq_next.1 h
  cases ht
  rfl

theorem ppWaitController_works (hs : s.ppStep = .s2) (h : ppWaitController s.nvmcComplete = .next t) : s.Works .s3 t :=
  works_waitReady hs (by decide) (fun u hu => by rw [ppStep, hu]; rfl) (fun _ => rfl) h

theorem ppWaitErase_works (hs : s.ppStep = .s4) (h : ppWaitErase s.nvmcComplete = .next t) :
    s.Works .s5 t ∧ t.widx = 0 := by
  refine ⟨works_waitReady hs (by decide) (fun u hu => by rw [ppStep, hu]; rfl) (fun _ => rfl) h, ?_⟩
  rw [ppWaitErase, waitReady_idle s.nvmcComplete_nvmBusy] at h
  cases h
  rfl

theorem ppWaitWrite_works (hs : s.ppStep = .s7) (h : ppWaitWrite s.nvmcComplete = .next t) : s.Works .s8 t :=
  works_waitReady hs (by decide) (fun u hu => by rw [ppStep, hu]; rfl) (fun _ => rfl) h

theorem ppErase_works (hs : s.ppStep = .s3) (h : ppErase s = .next t) : s.Works .s4 t :=
  works_of_ppStep hs (by rw [ppStep, hs]; exact h) (ppStep_of_andThen_ppGoto h)

theorem ppWrite_works (hs : s.ppStep = .s6) (h : ppWrite s = .next t) : s.Works .s7 t :=
  works_of_ppStep hs (by rw [ppStep, hs]; exact h) (ppStep_of_andThen_ppGoto h)

theorem ppRestoreRead_works (hs : s.ppStep = .s8) (h : ppRestoreRead s = .next t) : s.Works .s9 t :=
  works_of_ppStep hs (by rw [ppStep, hs]; exact h) (ppStep_of_andThen_ppGoto h)

/-- Staging what is left of the page: the last word leads to step 6 (R135). -/
theorem stageWords_works (n : Nat) (ha : s.cfg.admitted = true) (hs : s.ppStep = .s5) (hn : s.widx + n = s.cfg.pageWords)
    (hpos : 0 < n) (h : stageWords n s = .next t) : s.Works .s6 t := by
  induction n generalizing s with
  | zero => exact absurd hpos (lt_irrefl 0)
  | succ n ih =>
    obtain ⟨u, hu, ht⟩ := andThen_eq_next.1 h
    obtain ⟨-, -, -, hstaged⟩ := ppStage_eq_next.1 hu
    have hnext : s.widxNext = s.widx + 1 := State.widxNext_eq (by omega)
    have hwidx : u.widx = s.widx + 1 := by rw [hstaged, ← hnext]; rfl
    have hstands : u.ppStep = if s.widx + 1 = s.cfg.pageWords then .s6 else .s5 := by rw [hstaged, ← hnext]; rfl
    have hwork := works_of_ppStep hs (by rw [ppStep, hs]; exact hu) hstands
    by_cases hlast : s.widx + 1 = s.cfg.pageWords
    · obtain rfl : n = 0 := by omega
      cases ht
      rwa [if_pos hlast] at hwork
    · rw [if_neg hlast] at hwork
      have hcfg := hwork.cfg
      exact hwork.trans (ih (by rw [hcfg, ha]) hwork.stands (by rw [hwidx, hcfg]; omega) (by omega) ht)

/-- After a completion, a sequence answers a next state when its parts do. -/
theorem exists_of_thenComplete {f g : State → Result} (h : thenComplete (fun s => andThen (f s) g) s = .next t) :
    ∃ u, f s.nvmcComplete = .next u ∧ g u = .next t :=
  andThen_eq_next.1 h

/-- A whole commit is the Page Programmer's nine steps and the controller's completions (R131 to R139, log 27). -/
theorem execCommit_works {a src : Nat} (ha : s.cfg.admitted = true) (h : execCommit a src s = .next t) :
    (s.ppInvoke a src).Works .idle t := by
  unfold execCommit at h
  split_ifs at h
  obtain ⟨u2, h2, h⟩ := andThen_eq_next.1 h
  have w2 : (s.ppInvoke a src).Works .s2 u2 := works_of_ppStep (p := .s1) rfl h2 (by cases h2; rfl)
  obtain ⟨u3, h3, h⟩ := exists_of_thenComplete h
  have w3 := w2.trans (ppWaitController_works w2.stands h3)
  obtain ⟨u4, h4, h⟩ := andThen_eq_next.1 h
  have w4 := w3.trans (ppErase_works w3.stands h4)
  obtain ⟨u5, h5, h⟩ := exists_of_thenComplete h
  obtain ⟨w5, hwidx⟩ := ppWaitErase_works w4.stands h5
  replace w5 := w4.trans w5
  have ha5 : u5.cfg.admitted = true := by rw [w5.cfg]; exact ha
  have hpos : 0 < u5.cfg.pageWords := Config.pageWords_pos ha5
  obtain ⟨u6, h6, h⟩ := andThen_eq_next.1 h
  have w6 := w5.trans (stageWords_works u5.cfg.pageWords ha5 w5.stands (by rw [hwidx, Nat.zero_add]) hpos h6)
  obtain ⟨u7, h7, h⟩ := andThen_eq_next.1 h
  have w7 := w6.trans (ppWrite_works w6.stands h7)
  obtain ⟨u8, h8, h⟩ := exists_of_thenComplete h
  have w8 := w7.trans (ppWaitWrite_works w7.stands h8)
  obtain ⟨u9, h9, h⟩ := andThen_eq_next.1 h
  have w9 := w8.trans (ppRestoreRead_works w8.stands h9)
  exact w9.trans (works_of_ppStep w9.stands (by rw [ppStep, w9.stands]; exact h) (by cases h; rfl))

/-! ## A flush -/

/-- A page of a flush: the commit is started, runs, and the flush advances (R105, R106). -/
theorem flushPage_reaches (ha : s.cfg.admitted = true) (hat : s.receiverAt .ackFlush = true) (h : flushPage s = .next t) :
    s.Reaches t ∧ ∃ u : State, t = u.flushAdvance ∧ u.cfg = s.cfg ∧ u.flushK = s.flushK ∧ u.ppStep = .idle := by
  obtain ⟨v, hv, h⟩ := andThen_eq_next.1 h
  obtain ⟨u, hu, ht⟩ := andThen_eq_next.1 h
  obtain ⟨hin, rfl⟩ := flushGuard_eq_next.1 hv
  obtain rfl := next_eq_next.1 ht
  have hstart : receiverStep s = .next ((s.goto .ackAdv).ppInvoke s.taddr s.flushSrc) := by
    rw [receiverStep, ((s.receiverAt_iff _).1 hat).2]
    exact andThen_eq_next.2 ⟨_, hv, rfl⟩
  have hwork : ((s.goto .ackAdv).ppInvoke s.taddr s.flushSrc).Works .idle u := execCommit_works ha hu
  have hadv : u.receiverAt .ackAdv = true := (u.receiverAt_iff _).2 ⟨hwork.stands, hwork.ctl⟩
  have hend : receiverStep u = .next u.flushAdvance := by rw [receiverStep, ((u.receiverAt_iff _).1 hadv).2]
  exact ⟨(State.Reaches.of_receiverStep hat hstart).trans (hwork.reaches.trans (.of_receiverStep hadv hend)),
    u, rfl, hwork.cfg, hwork.flushK, hwork.stands⟩

/-- What is left of a flush, page by page (R107). -/
theorem flushPages_reaches (n : Nat) (ha : s.cfg.admitted = true) (hat : s.receiverAt .ackFlush = true)
    (hn : s.flushK.toNat + n = s.cfg.nPages) (hpos : 0 < n) (h : flushPages n s = .next t) : s.Reaches t := by
  induction n generalizing s with
  | zero => exact absurd hpos (lt_irrefl 0)
  | succ n ih =>
    obtain ⟨v, hv, h⟩ := andThen_eq_next.1 h
    obtain ⟨hreach, u, rfl, hcfg, hflush, hidle⟩ := flushPage_reaches ha hat hv
    have hsucc : (u.flushK + 1).toNat = s.flushK.toNat + 1 := by
      rw [hflush]
      exact flushK_succ s.cfg.nPages_le (by omega)
    by_cases hlast : n = 0
    · subst hlast
      cases h
      exact hreach
    · have hmore : (u.flushK + 1).toNat ≠ u.cfg.nPages := by rw [hcfg]; omega
      have hnext : u.flushAdvance = { u with taddr := u.taddrNext, flushK := u.flushK + 1, ctl := .ackFlush } := if_neg hmore
      rw [hnext] at hreach h
      refine hreach.trans (ih ?_ ?_ ?_ (by omega) h)
      · exact hcfg ▸ ha
      · exact (State.receiverAt_iff _ _).2 ⟨hidle, rfl⟩
      · change (u.flushK + 1).toNat + n = u.cfg.nPages
        rw [hcfg]
        omega

/-! ## The answers -/

theorem execAck_reaches (h : execAck s = .next t) : s.Reaches t := by
  have hfine : ∀ ph, s.receiverAt ph = true → ph = .ackSend ∨ ph = .termSend → receiverStep s = .next t := by
    intro ph hat hph
    rw [receiverStep, ((s.receiverAt_iff _).1 hat).2]
    obtain rfl | rfl := hph <;> exact h
  have hcases := h
  unfold execAck at hcases
  split_ifs at hcases with hsend hend
  · exact .of_receiverStep hsend (hfine _ hsend (.inl rfl))
  · exact .of_receiverStep hend (hfine _ hend (.inr rfl))

theorem execNak_reaches (h : execNak s = .next t) : s.Reaches t := by
  have hat : s.receiverAt .rejecting = true := by
    unfold execNak at h
    split_ifs at h with hat
    exact hat
  refine .of_receiverStep hat ?_
  rw [receiverStep, ((s.receiverAt_iff _).1 hat).2]
  exact h

/-- What follows an accepted packet: the check, the pages of the flush if there is one, the acknowledge (R104 to R108). -/
theorem acknowledge_reaches (ha : s.cfg.admitted = true) (hat : s.receiverAt .ackCheck = true) (h : acknowledge s = .next t) :
    s.Reaches t := by
  obtain ⟨hidle, hc⟩ := (s.receiverAt_iff _).1 hat
  have hcheck : s.Reaches s.flushCheck := .of_receiverStep hat (by rw [receiverStep, hc])
  by_cases hfull : s.cfg.pageSize ≤ s.woff
  · rw [acknowledge_of_le hfull] at h
    obtain ⟨u, hu, ht⟩ := andThen_eq_next.1 h
    have hstart : s.flushCheck = { s with flushK := 0, ctl := .ackFlush } := if_pos hfull
    have hflush := flushPages_reaches (s := { s with flushK := 0, ctl := .ackFlush }) s.cfg.nPages ha
      ((State.receiverAt_iff _ _).2 ⟨hidle, rfl⟩) (Nat.zero_add _) s.cfg.nPages_pos hu
    rw [hstart] at hcheck
    exact hcheck.trans (hflush.trans (execAck_reaches ht))
  · have hlt := Nat.not_le.1 hfull
    have hsend : s.flushCheck = s.goto .ackSend := if_neg hfull
    rw [acknowledge_of_lt hlt] at h
    rw [hsend] at hcheck
    exact hcheck.trans (execAck_reaches h)

/-! ## The wire units -/

/-- A byte is handled only at a phase that reads, and the Page Programmer stays where it stands (R91). -/
theorem reads_of_rcvByte {b : Byte} (h : rcvByte b s = .next t) : s.ctl.reads = true ∧ t.ppStep = s.ppStep := by
  unfold rcvByte at h
  cases hc : s.ctl <;> simp only [hc] at h
  case awaitMark | hdrMark =>
    obtain rfl := next_eq_next.1 h
    refine ⟨rfl, ?_⟩
    unfold State.marker
    split_ifs <;> rfl
  case hdrSeq | hdrCmp | payCrcHi | payCrcLo => cases h; exact ⟨rfl, rfl⟩
  case payData =>
    obtain ⟨u, hu, ht⟩ := andThen_eq_next.1 h
    obtain ⟨-, rfl⟩ := bufWrite_eq_next.1 hu
    obtain rfl := next_eq_next.1 ht
    refine ⟨rfl, ?_⟩
    split_ifs <;> rfl
  all_goals cases h

/-- Bytes waiting at the front of `RXQ` are taken one by one, each as if all of them had been taken already (R91). -/
theorem rcvBytes_reaches (bytes rest : List Byte) (hidle : s.ppStep = .idle) (hq : s.rxq = bytes ++ rest)
    (h : rcvBytes bytes { s with rxq := rest } = .next t) : s.Reaches t := by
  induction bytes generalizing s with
  | nil =>
    have hsame : s.withStreams rest s.txq = s := State.withStreams_self hq rfl
    cases h
    change s.Reaches (s.withStreams rest s.txq)
    rw [hsame]
    exact .refl s
  | cons b bs ih =>
    obtain ⟨u, hu, ht⟩ := andThen_eq_next.1 h
    have hreads : s.ctl.reads = true := (reads_of_rcvByte hu).1
    have hstays : u.ppStep = s.ppStep := (reads_of_rcvByte hu).2
    have htaken : u.withStreams rest s.txq = u := State.withStreams_self (rcvByte_quiet hu).rxq (rcvByte_quiet hu).txq
    have hread : rcvStep s = .next (u.withStreams (bs ++ rest) s.txq) := by
      rw [rcvStep_idle hidle, receiverStep_of_reads hreads, rcvRead_cons hq]
      exact rcvByte_blind b (s := { s with rxq := rest }) (bs ++ rest) s.txq hu
    refine (State.Reaches.of_rcvStep (s.rcvEnabled_of_reads hidle hreads hq) hread).trans (ih (hstays.trans hidle) rfl ?_)
    change rcvBytes bs (u.withStreams rest s.txq) = _
    rw [htaken, ht]

theorem execEot_reaches {rest : List Byte} (hq : s.rxq = symEOT :: rest) (h : execEot { s with rxq := rest } = .next t) :
    s.Reaches t := by
  unfold execEot at h
  split_ifs at h with hm
  have hidle : s.ppStep = .idle := ((State.receiverAtMark_iff _).1 hm).1
  obtain ⟨u, hu, ht⟩ := andThen_eq_next.1 h
  exact (rcvBytes_reaches [symEOT] rest hidle hq (andThen_eq_next.2 ⟨u, hu, rfl⟩)).trans (execAck_reaches ht)

/-- A payload is stored whole only where `BUF` has room for it (R37). -/
theorem room_of_rcvBytes (payload : List Byte) (hc : s.ctl = .payData) (hn : s.bcnt.toNat + payload.length = 128)
    (h : rcvBytes payload s = .next t) : s.woff + 128 ≤ s.cfg.bufSize := by
  induction payload generalizing s with
  | nil => have hb : s.bcnt.toNat < 128 := s.bcnt.isLt; simp at hn; omega
  | cons b bs ih =>
    obtain ⟨u, hu, ht⟩ := andThen_eq_next.1 h
    rw [rcvByte_of_payData hc] at hu
    obtain ⟨v, hv, hu⟩ := andThen_eq_next.1 hu
    obtain ⟨hin, rfl⟩ := bufWrite_eq_next.1 hv
    rw [List.length_cons] at hn
    by_cases hlast : s.bcnt = 127
    · have h127 : s.bcnt.toNat = 127 := by rw [hlast]; rfl
      omega
    · have hsucc := bcnt_succ hlast
      have hleft : (s.bcnt + 1).toNat + bs.length = 128 := by omega
      rw [if_neg hlast] at hu
      cases hu
      exact ih (s := { s with buf := Memory.write s.buf (s.woff + s.bcnt.toNat) b, bcnt := s.bcnt + 1 }) hc hleft ht

/-- A packet is answered only where `BUF` has room for it. -/
theorem room_of_execSoh {seq cmp hi lo : Byte} {payload : List Byte} (h : execSoh seq cmp payload hi lo s = .next t) :
    s.woff + 128 ≤ s.cfg.bufSize := by
  obtain ⟨hl, hm⟩ := enabled_of_execSoh h
  unfold execSoh at h
  split_ifs at h
  obtain ⟨u, hu, -⟩ := andThen_eq_next.1 h
  rw [rcvBytes_packet_header hm, rcvBytes_append] at hu
  obtain ⟨v, hv, -⟩ := andThen_eq_next.1 hu
  exact room_of_rcvBytes (s := { s with bcnt := 0, ctl := .payData }) payload rfl ((Nat.zero_add _).trans hl) hv

/-- A packet already taken from `RXQ`: the comparison, and what follows it (R103 to R110). -/
theorem withReceived_reaches {seq cmp hi lo : Byte} {payload : List Byte} (ha : s.cfg.admitted = true)
    (h : execSoh seq cmp payload hi lo s = .next t) : (s.withReceived payload hi lo).Reaches t := by
  obtain ⟨hl, hm⟩ := enabled_of_execSoh h
  have hroom := room_of_execSoh h
  obtain ⟨hidle, -⟩ := s.receiverAtMark_iff.1 hm
  have hvalid : (s.withReceived payload hi lo).Reaches (s.withValidated payload hi lo).judge :=
    .of_receiverStep (ph := .validating) ((State.receiverAt_iff _ _).2 ⟨hidle, rfl⟩) (validate_withReceived hl hroom hi lo)
  refine hvalid.trans ?_
  by_cases hcode : crc16 s.cfg payload = codeOf hi lo
  · have hjudge : (s.withValidated payload hi lo).judge = s.withAccepted payload hi lo := if_pos hcode
    replace h := (exec_soh_of_rightCode hm hl hroom hcode seq cmp).symm.trans h
    rw [hjudge]
    exact acknowledge_reaches ha ((State.receiverAt_iff _ _).2 ⟨hidle, rfl⟩) h
  · have hjudge : (s.withValidated payload hi lo).judge = (s.withValidated payload hi lo).takeMismatch := if_neg hcode
    replace h := (exec_soh_eq_conclude hm hl hroom seq cmp hi lo).symm.trans h
    rw [hjudge] at h ⊢
    exact execNak_reaches h

/-- A whole packet, from its marker on (R116). -/
theorem execSoh_reaches {seq cmp hi lo : Byte} {payload rest : List Byte} (ha : s.cfg.admitted = true)
    (hq : s.rxq = symSOH :: packetBody seq cmp payload hi lo ++ rest)
    (h : execSoh seq cmp payload hi lo { s with rxq := rest } = .next t) : s.Reaches t := by
  obtain ⟨hl, hm⟩ := enabled_of_execSoh h
  have hidle : s.ppStep = .idle := ((State.receiverAtMark_iff _).1 hm).1
  have hbytes := rcvBytes_packet hm hl (room_of_execSoh h) seq cmp hi lo
  exact (rcvBytes_reaches _ rest hidle hq hbytes).trans (withReceived_reaches ha h)

/-- Settles O6: what starts is one fine step, a page of a flush, or a wire unit, and the fine steps reach each. -/
theorem wholeInstructionIsItsFineSteps : Obligations.WholeInstructionIsItsFineSteps := by
  unfold Obligations.WholeInstructionIsItsFineSteps
  intro s t i ha hs hf h
  have hreach : s.Reaches t := by
    obtain ⟨he, -, hrun⟩ | ⟨hat, rfl⟩ | ⟨hm, rest, hdec⟩ := fetch_cases hf
    · exact .of_rcvStep he (hrun.symm.trans h)
    · rw [runInstr_commit] at h
      exact (flushPage_reaches ha hat h).1
    · rw [runInstr_of_decodeReceived hdec] at h
      obtain ⟨seq, cmp, payload, hi, lo, -, rfl, hq⟩ | ⟨rfl, hq⟩ := decodeReceived_eq_ok.1 hdec
      · exact execSoh_reaches ha hq h
      · exact execEot_reaches hq h
  exact (hreach ha hs).1

end Sys2Proof.Machine
end

section
/-! SUPPORT. The Page Programmer's statements, settled: each of its nine steps as a step of the machine (R131 to R139, R145), and the
net effect of a whole commit (R141). -/

namespace Sys2Proof.Machine

variable {s t : State}

/-! ## A commit's step as the machine's step -/

/-- With a commit running the machine's step is the Page Programmer's, where that one is enabled (R90, R145). -/
theorem step_running (ha : s.cfg.admitted = true) (hs : s.script = []) (hrun : s.ppStep ≠ .idle) (he : s.rcvEnabled = true) :
    step s = ppStep s :=
  (step_rcv ha hs he).trans (rcvStep_running hrun)

/-- While the controller is idle no step of a commit waits (R132, R134, R137). -/
theorem State.rcvEnabled_of_running (hb : s.nvmBusy = false) (hrun : s.ppStep ≠ .idle) : s.rcvEnabled = true := by
  unfold State.rcvEnabled
  cases hp : s.ppStep
  case idle => exact absurd hp hrun
  case s2 | s4 | s7 => rw [hb]; rfl
  all_goals rfl

/-- With the controller idle the machine's step is the running commit's, whichever it is. -/
theorem step_running_idle (ha : s.cfg.admitted = true) (hs : s.script = []) (hb : s.nvmBusy = false) (hrun : s.ppStep ≠ .idle) :
    step s = ppStep s :=
  step_running ha hs hrun (State.rcvEnabled_of_running hb hrun)

/-! ## The nine steps -/

/-- Settles O36: steps 1 and 9 wait for nothing, the first saves `IE` and the second restores it. -/
theorem interruptGuardSavesAndRestores : Obligations.InterruptGuardSavesAndRestores := by
  unfold Obligations.InterruptGuardSavesAndRestores
  refine fun s ha hs => ⟨fun hp => ?_, fun hp => ?_⟩ <;>
    rw [step_running ha hs (by simp [hp]) (by simp [State.rcvEnabled, hp]), ppStep, hp] <;>
    rfl

/-- Settles O37: with the controller idle a wait is its continuation. -/
theorem waitStepsGoOnWhenIdle : Obligations.WaitStepsGoOnWhenIdle := by
  unfold Obligations.WaitStepsGoOnWhenIdle
  refine fun s ha hs hb => ⟨fun hp => ?_, fun hp => ?_, fun hp => ?_⟩ <;>
    rw [step_running_idle ha hs hb (by simp [hp]), ppStep, hp] <;>
    exact waitReady_idle hb

/-- Settles O38: the idle controller takes the command, whose address is a page's. -/
theorem commandStepsIssueTheirCommand : Obligations.CommandStepsIssueTheirCommand := by
  unfold Obligations.CommandStepsIssueTheirCommand
  intro s ha hs hb hpage
  have hpend := State.nvmPend_eq_none hb
  refine ⟨fun hp => ?_, fun hp => ?_, fun hp => ?_⟩ <;>
    rw [step_running_idle ha hs hb (by simp [hp]), ppStep, hp]
  · exact ppErase_eq hpend hpage
  · exact ppWrite_eq hpend hpage
  · exact ppRestoreRead_eq hpend

/-- Settles O39: the word staged is the slice's at `WIDX`, low byte first. -/
theorem stagingTakesWordsLittleEndian : Obligations.StagingTakesWordsLittleEndian := by
  unfold Obligations.StagingTakesWordsLittleEndian
  intro s ha hs hp hb hlt hsrc
  refine ⟨s.sourceWord s.widx, wordOf_toNat _ _, ?_⟩
  rw [step_running_idle ha hs hb (by simp [hp]), ppStep, hp]
  exact ppStage_eq ha (State.nvmPend_eq_none hb) hlt hsrc

/-! ## What a commit's step leaves alone -/

/-- A step of the Page Programmer writes nothing but its registers, the interrupt guard, what a command sets, and `PWB`. -/
theorem ppStep_frame (h : ppStep s = .next t) : t = { s.withProgrammerOf t with pwb := t.pwb } := by
  obtain ⟨-, rfl⟩ | hf := ppStep_cases h
  · rfl
  · rw [hf]
    rfl

/-- Settles O59: the block's step is the commit's, whose frame holds every field named. -/
theorem receiverWaitsForTheCommit : Obligations.ReceiverWaitsForTheCommit := by
  unfold Obligations.ReceiverWaitsForTheCommit
  intro s t hrun h
  have hstep : ppStep s = .next t := (rcvStep_running hrun).symm.trans h
  rw [ppStep_frame hstep]
  exact ⟨rfl, rfl, rfl, rfl, rfl, rfl, rfl, rfl, rfl, rfl, rfl, rfl, rfl, rfl⟩

/-! ## The whole commit -/

/-- A commit keeps the canonical form of program memory. -/
theorem State.wf_nvmWithPage (h : Memory.wf s.nvm = true) (a src : Nat) : Memory.wf (s.nvmWithPage a src) = true :=
  Memory.wf_writeAll (Memory.wf_writeAll h _ _) _ _

/-- Settles O27: the commit's next state, whose page holds the slice. -/
theorem commitProgramsExactlyOnePage : Obligations.CommitProgramsExactlyOnePage := by
  unfold Obligations.CommitProgramsExactlyOnePage
  intro s a src hadm hidle hown ha hsrc
  exact ⟨s.nvmWithPage a src, execCommit_eq hadm hidle hown ha hsrc, s.nvmWithPage_programmed a src,
    fun hwf => State.wf_nvmWithPage hwf a src⟩

end Sys2Proof.Machine
end

section
/-! SUPPORT. The memory controller's statements, settled: its four commands (R150 to R154), its completion (R156), and what an observer
reads (R157). -/

namespace Sys2Proof.Machine

variable {s : State} {a : Nat}

/-! ## The commands -/

/-- With no page in flight a byte of `NVM` is its cell. -/
theorem State.nvmByte_of_idle (h : s.nvmBusy = false) (x : Nat) : s.nvmByte x = Memory.read s.nvm x := by
  simp [State.nvmByte, State.inFlight, State.nvmPend_eq_none h]

/-- After an erase or a write was started on the page at `a` the bytes of that page are hidden, and every other byte is its cell
(log 14). -/
theorem State.nvmByte_of_started {op : NvmOp} (hop : op.page = some a) (x : Nat) :
    State.nvmByte { s with nvmPend := some op, rwwEn := false } x =
      if a ≤ x ∧ x < a + s.cfg.pageSize then none else Memory.read s.nvm x := by
  simp [State.nvmByte, State.inFlight, hop]

/-- An erase or a write at an idle controller: it is outstanding on its page, whose bytes are unspecified until the completion
(R151, R153). -/
theorem startNvmOp_of_page {op : NvmOp} (hop : op.page = some a) (hidle : s.nvmBusy = false) (ha : s.cfg.isPageAddr a = true) :
    ∃ t, startNvmOp op a s = .next t ∧ t = { s with nvmPend := some op, rwwEn := false } ∧ t.nvmBusy = true ∧
      (∀ x, a ≤ x → x < a + s.cfg.pageSize → t.nvmByte x = none) ∧
      (∀ x, x < a ∨ a + s.cfg.pageSize ≤ x → t.nvmByte x = s.nvmByte x) := by
  refine ⟨_, startNvmOp_eq_next.2 ⟨hidle, ha, rfl⟩, rfl, rfl, fun x hlo hhi => ?_, fun x hx => ?_⟩ <;>
    rw [State.nvmByte_of_started hop]
  · exact if_pos ⟨hlo, hhi⟩
  · rw [if_neg (by omega), State.nvmByte_of_idle hidle]

/-- Settles O28: an erase is an operation on its page. -/
theorem eraseCommandStartsAnErase : Obligations.EraseCommandStartsAnErase := by
  unfold Obligations.EraseCommandStartsAnErase
  exact fun s a hidle ha => startNvmOp_of_page (op := .erase a) rfl hidle ha

/-- Settles O30: a write is an operation on its page. -/
theorem writeCommandStartsAWrite : Obligations.WriteCommandStartsAWrite := by
  unfold Obligations.WriteCommandStartsAWrite
  exact fun s a hidle ha => startNvmOp_of_page (op := .write a) rfl hidle ha

/-- Settles O29: the fill writes the word at `o / 2`. -/
theorem fillCommandStagesOneWord : Obligations.FillCommandStagesOneWord := by
  unfold Obligations.FillCommandStagesOneWord
  intro s o w hidle heven hin
  have hoff : s.cfg.isFillOffset o = true := (Config.isFillOffset_iff _ _).2 ⟨heven, hin⟩
  refine ⟨_, execNvmFill_eq_next.2 ⟨hidle, hoff, rfl⟩, rfl, hidle, ?_, fun i hi => ?_⟩ <;>
    rw [State.pwbWord_write]
  · exact if_pos rfl
  · exact if_neg hi

/-- Settles O31: the restore is accepted at an idle controller. -/
theorem restoreCommandOpensReads : Obligations.RestoreCommandOpensReads := by
  unfold Obligations.RestoreCommandOpensReads
  exact fun s hidle => execNvmRwwen_eq_next.2 ⟨hidle, rfl⟩

/-- An erase or a write at a busy controller faults (R187). -/
theorem startNvmOp_busy (hbusy : s.nvmBusy = true) (op : NvmOp) (a : Nat) : startNvmOp op a s = .fault .nvmCommandWhileBusy := by
  rw [startNvmOp, whileIdle_busy hbusy]

/-- A fill at a busy controller faults (R187). -/
theorem execNvmFill_busy (hbusy : s.nvmBusy = true) (o : Nat) (w : Word) :
    execNvmFill o w s = .fault .nvmCommandWhileBusy := by
  rw [execNvmFill, whileIdle_busy hbusy]

/-- A restore at a busy controller faults (R187). -/
theorem execNvmRwwen_busy (hbusy : s.nvmBusy = true) : execNvmRwwen s = .fault .nvmCommandWhileBusy := whileIdle_busy hbusy

/-- Settles O32: each of the commands asks for the idle controller first. -/
theorem busyControllerFaults : Obligations.BusyControllerFaults := by
  unfold Obligations.BusyControllerFaults
  exact fun s a o w hbusy => ⟨startNvmOp_busy hbusy (.erase a) a, execNvmFill_busy hbusy o w, startNvmOp_busy hbusy (.write a) a,
    execNvmRwwen_busy hbusy⟩

/-! ## The completion -/

theorem State.pageErased_iff :
    s.pageErased a = true ↔ ∀ k, k < s.cfg.pageSize → Memory.read s.nvm (a + k) = some s.cfg.erasedByte := by
  simp [State.pageErased, List.all_eq_true]

/-- The byte at offset `k` of the page write buffer: words stand low byte first (R42). -/
def State.pwbByte (s : State) (k : Nat) : Byte :=
  if k % 2 = 0 then lowByte (s.pwbWord (k / 2)) else highByte (s.pwbWord (k / 2))

theorem State.pwbByte_even (s : State) (i : Nat) : s.pwbByte (2 * i) = lowByte (s.pwbWord i) := by
  simp [State.pwbByte]

theorem State.pwbByte_odd (s : State) (i : Nat) : s.pwbByte (2 * i + 1) = highByte (s.pwbWord i) := by
  have hmod : (2 * i + 1) % 2 ≠ 0 := by omega
  have hdiv : (2 * i + 1) / 2 = i := by omega
  rw [State.pwbByte, if_neg hmod, hdiv]

/-- The bytes a write puts into its page are those of the page write buffer in the order of their offsets (R42, R156). -/
theorem State.pwbBytes_eq_map (ha : s.cfg.admitted = true) : s.pwbBytes = (List.range s.cfg.pageSize).map s.pwbByte := by
  rw [← Config.pageWords_mul ha, ← flatMap_pairs]
  simp only [State.pwbByte_even, State.pwbByte_odd]
  rfl

/-- A write of an erased page gives it the bytes of the page write buffer, and no other byte (R156). -/
theorem State.read_nvmAfterWrite_of_erased (ha : s.cfg.admitted = true) (he : s.pageErased a = true) (x : Nat) :
    Memory.read (s.nvmAfterWrite a) x =
      if a ≤ x ∧ x < a + s.cfg.pageSize then some (s.pwbByte (x - a)) else Memory.read s.nvm x := by
  rw [State.nvmAfterWrite, if_pos he, State.pwbBytes_eq_map ha, Memory.read_writeAll, List.length_map, List.length_range]
  split_ifs with hx
  · have hk : x - a < s.cfg.pageSize := by omega
    simp [hk]
  · rfl

/-- A write of a page that was not erased leaves it, and no other byte, unspecified (R153; log 15). -/
theorem State.read_nvmAfterWrite_of_not_erased (he : ¬ s.pageErased a = true) (x : Nat) :
    Memory.read (s.nvmAfterWrite a) x = if a ≤ x ∧ x < a + s.cfg.pageSize then none else Memory.read s.nvm x := by
  rw [State.nvmAfterWrite, if_neg he, Memory.read_forget]

/-- A completed write leaves every cell outside its page. -/
theorem State.read_nvmAfterWrite_outside (ha : s.cfg.admitted = true) (hx : ¬ (a ≤ x ∧ x < a + s.cfg.pageSize)) :
    Memory.read (s.nvmAfterWrite a) x = Memory.read s.nvm x := by
  by_cases he : s.pageErased a = true
  · rw [State.read_nvmAfterWrite_of_erased ha he, if_neg hx]
  · rw [State.read_nvmAfterWrite_of_not_erased he, if_neg hx]

/-- A completed write leaves every draw outside its page. -/
theorem State.read_nvmDrawAfterWrite_outside (hx : ¬ (a ≤ x ∧ x < a + s.cfg.pageSize)) :
    Memory.read (s.nvmDrawAfterWrite a) x = Memory.read s.nvmDraw x := by
  unfold State.nvmDrawAfterWrite
  split_ifs
  · rfl
  · rw [State.read_redrawPage, if_neg hx]

/-- A write of an erased page, word by word (R42, R156). -/
theorem State.read_nvmAfterWrite_word (ha : s.cfg.admitted = true) (he : s.pageErased a = true) {i : Nat}
    (hi : i < s.cfg.pageWords) :
    Memory.read (s.nvmAfterWrite a) (a + 2 * i) = some (lowByte (s.pwbWord i)) ∧
      Memory.read (s.nvmAfterWrite a) (a + 2 * i + 1) = some (highByte (s.pwbWord i)) := by
  have hwords := Config.pageWords_mul ha
  have hodd : a + 2 * i + 1 - a = 2 * i + 1 := by omega
  constructor <;> rw [State.read_nvmAfterWrite_of_erased ha he, if_pos (by omega)]
  · rw [Nat.add_sub_cancel_left, State.pwbByte_even]
  · rw [hodd, State.pwbByte_odd]

/-- A read after a block of one value was written: that value inside the block, the old one outside. -/
theorem Memory.read_writeAll_replicate {α : Type} (m : List (Nat × α)) (a n : Nat) (v : α) (x : Nat) :
    Memory.read (Memory.writeAll m a (List.replicate n v)) x = if a ≤ x ∧ x < a + n then some v else Memory.read m x := by
  rw [Memory.read_writeAll, List.length_replicate]
  split_ifs with hx
  · rw [List.getElem?_replicate, if_pos (by omega)]
  · rfl

/-- The completion of a write, whatever its page held (R156). -/
theorem runEvent_complete_of_write (h : s.nvmPend = some (.write a)) :
    runEvent .complete s = .next { s with nvm := s.nvmAfterWrite a, nvmDraw := s.nvmDrawAfterWrite a, nvmPend := none, pwb := []
                                          pwbDraw := s.fresh, fresh := s.fresh + 1 } := by
  rw [runEvent, State.nvmcComplete, h]

/-- Settles O34: an erase, a write of a page that was or was not erased, and a foreign operation. -/
theorem completionGivesThePageItsBytes : Obligations.CompletionGivesThePageItsBytes := by
  unfold Obligations.CompletionGivesThePageItsBytes
  refine fun s ha => ⟨fun a hop => ?erase, fun a hop => ?write, fun hop => ?foreign⟩
  case erase => exact ⟨_, congrArg Host.Outcome.next (State.nvmcComplete_of_erase hop), Memory.read_writeAll_replicate s.nvm a _ _⟩
  case write =>
    refine ⟨_, _, runEvent_complete_of_write hop, fun x hx => ?_, fun herased => ?_, fun k hk hne x hlo hhi => ?_⟩
    · have hout : ¬ (a ≤ x ∧ x < a + s.cfg.pageSize) := by omega
      exact ⟨State.read_nvmAfterWrite_outside ha hout, State.read_nvmDrawAfterWrite_outside hout⟩
    · have he := State.pageErased_iff.2 herased
      exact ⟨if_pos he, fun i hi => State.read_nvmAfterWrite_word ha he hi⟩
    · have he : ¬ s.pageErased a = true := fun he => hne (State.pageErased_iff.1 he k hk)
      rw [State.read_nvmAfterWrite_of_not_erased he, if_pos ⟨hlo, hhi⟩]
  case foreign => exact congrArg Host.Outcome.next (State.nvmcComplete_of_noOwnOp (.inr hop))

/-! ## What an observer reads -/

@[simp] theorem State.afterRead_nvm (s : State) : s.afterRead.nvm = s.nvm := by
  unfold State.afterRead; split_ifs <;> rfl

@[simp] theorem State.afterRead_nvmPend (s : State) : s.afterRead.nvmPend = s.nvmPend := by
  unfold State.afterRead; split_ifs <;> rfl

/-- Settles O35: a read of readable memory is the stored bytes; one in the window takes a draw and writes nothing. -/
theorem observerReadsStoredBytes : Obligations.ObserverReadsStoredBytes := by
  unfold Obligations.ObserverReadsStoredBytes
  refine fun s addr n => ⟨fun hin => ?_, fun hpast => if_neg (by omega)⟩
  by_cases hr : s.readable = true
  · refine ⟨_, _, memRead_readable hin hr, by simp, rfl, rfl, fun _ _ => ⟨rfl, fun k hk => ?_⟩⟩
    have hbyte : ((List.range n).map fun k => s.storedByte (addr + k))[k]? = some (s.storedByte (addr + k)) := by simp [hk]
    exact ⟨hbyte, fun b hb => by rw [hbyte, State.storedByte_of_read hb]⟩
  · refine ⟨_, _, if_pos hin, by simp, s.afterRead_nvm, s.afterRead_nvmPend, fun hopen hidle => absurd ?_ hr⟩
    simp [State.readable, hopen, hidle]

end Sys2Proof.Machine
end

section
/-! SUPPORT. The program memory outside the application region (R32, R48, R49, R186). It changes nowhere but in the page of the block's
outstanding operation, which a good state has inside the region: every move of every agent spares the bytes outside. -/

namespace Sys2Proof.Machine

/-- Outside the application region of `c`, `t` has every cell of `NVM` and every draw of an unspecified byte that `s` has. -/
def State.Spares (c : Config) (s t : State) : Prop :=
  ∀ x, x < c.appBase ∨ c.appLimit ≤ x →
    Memory.read t.nvm x = Memory.read s.nvm x ∧ Memory.read t.nvmDraw x = Memory.read s.nvmDraw x

variable {c : Config} {k : Prop} {ph : Ctl} {s t u : State} {x : Nat} {P : State → Prop} {o : Result} {g : State → Result}

/-! ## Sequences -/

/-- What writes neither `NVM` nor its draws spares all of it. -/
theorem State.Spares.of_eq (hn : t.nvm = s.nvm) (hd : t.nvmDraw = s.nvmDraw) : s.Spares c t :=
  fun x _ => ⟨congrArg (Memory.read · x) hn, congrArg (Memory.read · x) hd⟩

theorem State.Spares.trans (h : s.Spares c t) (h' : t.Spares c u) : s.Spares c u := fun x hx =>
  ⟨(h' x hx).1.trans (h x hx).1, (h' x hx).2.trans (h x hx).2⟩

/-- A sequence spares what both its parts do, the second from the states the first ends in. -/
theorem State.Spares.andThen (h : andThen o g = .next t) (hends : Ends c P o) (ho : ∀ u, o = .next u → s.Spares c u)
    (hg : ∀ u, P u → g u = .next t → u.Spares c t) : s.Spares c t := by
  obtain ⟨u, rfl, ht⟩ := andThen_eq_next.1 h
  exact (ho u rfl).trans (hg u hends ht)

/-- The Receiver writes no program memory. -/
theorem State.Spares.of_receiver (h : t = s.withReceiverOf t) : s.Spares c t := by
  obtain ⟨hn, hd, -⟩ := State.memory_of_withReceiverOf h
  exact .of_eq hn hd

/-! ## The page of the outstanding operation -/

theorem State.outside_page_of_inFlight (h : s.inFlight x = false) {a : Nat} (ha : s.nvmPend.bind NvmOp.page = some a) :
    ¬ (a ≤ x ∧ x < a + s.cfg.pageSize) := by
  simpa [State.inFlight, ha] using h

/-- What is outstanding works inside the application region (R32, R156). -/
theorem State.Inv.inFlight_eq_false (h : s.Inv) (hx : x < s.cfg.appBase ∨ s.cfg.appLimit ≤ x) : s.inFlight x = false := by
  unfold State.inFlight
  split
  · next a ha =>
    obtain ⟨hlo, hhi⟩ := h.pend_page ha
    simp only [Bool.and_eq_false_iff, decide_eq_false_iff_not]
    omega
  · rfl

/-- A completion leaves every cell and draw outside the page of its operation (R156). -/
theorem State.nvmcComplete_outside (hadm : s.cfg.admitted = true) (hx : s.inFlight x = false) :
    Memory.read s.nvmcComplete.nvm x = Memory.read s.nvm x ∧
      Memory.read s.nvmcComplete.nvmDraw x = Memory.read s.nvmDraw x := by
  have hout : ∀ a, s.nvmPend.bind NvmOp.page = some a → ¬ (a ≤ x ∧ x < a + s.cfg.pageSize) := fun _ =>
    State.outside_page_of_inFlight hx
  unfold State.nvmcComplete
  split
  · exact ⟨rfl, rfl⟩
  · exact ⟨rfl, rfl⟩
  · next a hop =>
    have ha := hout a (by rw [hop]; rfl)
    exact ⟨by rw [Memory.read_writeAll_replicate, if_neg ha], rfl⟩
  · next a hop =>
    have ha := hout a (by rw [hop]; rfl)
    exact ⟨State.read_nvmAfterWrite_outside hadm ha, State.read_nvmDrawAfterWrite_outside ha⟩

/-- A reset leaves every cell and draw outside the page of the operation it strikes (R210). -/
theorem State.hardReset_outside (hx : s.inFlight x = false) (r : PlatformReset) :
    Memory.read (s.hardReset r).nvm x = Memory.read s.nvm x ∧
      Memory.read (s.hardReset r).nvmDraw x = Memory.read s.nvmDraw x := by
  show Memory.read s.nvmAfterReset x = _ ∧ Memory.read s.nvmDrawAfterReset x = _
  unfold State.nvmAfterReset State.nvmDrawAfterReset
  split
  · next a hop =>
    have ha := State.outside_page_of_inFlight hx hop
    rw [Memory.read_forget, State.read_redrawPage, if_neg ha, if_neg ha]
    exact ⟨rfl, rfl⟩
  · exact ⟨rfl, rfl⟩

/-! ## A flush -/

/-- A page of a flush is programmed at `TADDR`, inside the region by the guard (R105, R141, R186). -/
theorem flushPage_spares (h : s.Stands c k .ackFlush) (ht : flushPage s = .next t) : s.Spares c t := by
  obtain rfl := h.cfg
  obtain ⟨v, hv, -⟩ := andThen_eq_next.1 ht
  obtain ⟨hin, -⟩ := flushGuard_eq_next.1 hv
  obtain ⟨hmod, hlo, -⟩ := h.inv.taddr
  obtain ⟨-, hk⟩ : s.woff = s.cfg.nPages * s.cfg.pageSize ∧ s.flushK.toNat < s.cfg.nPages := h.woff
  have hown : s.noOwnOp := by
    have hp := h.inv.programmer
    rw [State.programmerOk, h.idle] at hp
    exact hp.1
  have hmem : t.nvm = s.nvmWithPage s.taddr s.flushSrc ∧ t.nvmDraw = s.nvmDraw := by
    rw [flushPage_eq h.inv.admitted h.idle hown hmod hin hk] at ht
    obtain rfl := next_eq_next.1 ht
    split_ifs <;> exact ⟨rfl, rfl⟩
  intro x hx
  rw [hmem.1, hmem.2, s.nvmWithPage_programmed s.taddr s.flushSrc x, if_neg (by omega)]
  exact ⟨rfl, rfl⟩

/-- The pages that are left of a flush, one after the other. -/
theorem flushPages_spares (n : Nat) (h : s.Stands c k .ackFlush) (hn : s.flushK.toNat + n = c.nPages)
    (ht : flushPages n s = .next t) : s.Spares c t := by
  induction n generalizing s with
  | zero => cases ht; exact .of_eq rfl rfl
  | succ n ih =>
    refine .andThen ht (flushPage_ends h) (fun _ hu => flushPage_spares h hu) fun u hu ht => ?_
    by_cases hlast : s.flushK.toNat + 1 = c.nPages
    · obtain rfl : n = 0 := by omega
      cases ht
      exact .of_eq rfl rfl
    · rw [if_neg hlast] at hu
      exact ih hu.1 (by omega) ht

/-- The check of a full buffer, and its flush (R104 to R107). -/
theorem flushIfFull_spares (h : s.Stands c k .ackCheck) (ht : flushIfFull s = .next t) : s.Spares c t := by
  have hcheck : s.Spares c s.flushCheck := .of_receiver s.flushCheck_frame
  unfold flushIfFull at ht
  split_ifs at ht with hfull
  · obtain ⟨hf, hzero⟩ := h.flushCheck.resolve_right fun hf => by simp [hf.phase] at hfull
    refine hcheck.trans (flushPages_spares s.cfg.nPages hf ?_ ht)
    rw [hzero, h.cfg]
    exact Nat.zero_add _
  · cases ht
    exact hcheck

/-! ## The wire units -/

/-- What follows the comparison: the flush writes program memory, the answer does not (R104 to R110). -/
theorem conclude_spares (h : s.Stands c k .ackCheck ∨ s.Stands c k .rejecting) (ht : conclude s = .next t) : s.Spares c t := by
  unfold conclude at ht
  obtain h | h := h
  · rw [if_pos h.phase, acknowledge_eq] at ht
    obtain ⟨u, hu, ht⟩ := andThen_eq_next.1 ht
    exact (flushIfFull_spares h hu).trans (.of_receiver (execAck_frame ht))
  · rw [if_neg (by simp [h.phase])] at ht
    exact .of_receiver (execNak_frame ht)

theorem rcvBytes_spares {bytes : List Byte} (ht : rcvBytes bytes s = .next t) : s.Spares c t := by
  induction bytes generalizing s with
  | nil => cases ht; exact .of_eq rfl rfl
  | cons b bs ih =>
    obtain ⟨u, hu, ht⟩ := andThen_eq_next.1 ht
    exact (State.Spares.of_receiver (rcvByte_frame hu)).trans (ih ht)

/-- A whole packet (R116): only what follows the comparison can write program memory. -/
theorem execSoh_spares (h : s.Stands c k ph) (hm : ph = .awaitMark ∨ ph = .hdrMark) {seq cmp hi lo : Byte} {payload : List Byte}
    (hl : payload.length = blockSize) (ht : execSoh seq cmp payload hi lo s = .next t) : s.Spares c t := by
  rw [execSoh, if_pos hl, if_pos (h.receiverAtMark hm)] at ht
  exact .andThen ht (rcvBytes_packet_ends h hm seq cmp hl hi lo) (fun _ hu => rcvBytes_spares hu) fun _ h ht =>
    .andThen ht (validate_ends h) (fun _ hu => .of_receiver (validate_frame hu)) fun _ h ht => conclude_spares h ht

theorem execEot_spares (ht : execEot s = .next t) : s.Spares c t := by
  unfold execEot at ht
  split_ifs at ht
  obtain ⟨u, hu, ht⟩ := andThen_eq_next.1 ht
  exact (State.Spares.of_receiver (rcvByte_frame hu)).trans (.of_receiver (execAck_frame ht))

/-! ## The moves of the agents -/

/-- A whole-unit move writes program memory only in the pages of a flush (R116 to R118). -/
theorem unitStep_spares (h : s.Sound c k) (ht : unitStep s = .next t) : s.Spares c t := by
  obtain hu | ⟨hi, hc, hu⟩ | ⟨hi, hm, hu | ⟨seq, cmp, payload, hi', lo, hl, hu⟩⟩ := unitStep_cases s <;> rw [hu] at ht
  · obtain ⟨hn, hd, -⟩ := rcvStep_memory ht
    exact .of_eq hn hd
  · exact flushPage_spares ⟨h, hi, hc⟩ ht
  · exact execEot_spares (s := s.dropRx 1) ht
  · exact execSoh_spares (s := s.dropRx packetBytes) ((State.Stands.mk h hi rfl).free rfl) hm hl ht

/-- Every move from a good state spares what is outside the region: a whole unit, a completion and a reset by the lemmas above, and no
other move writes program memory. -/
theorem runEvent_spares {e : Event} (h : s.Sound c k) (ht : runEvent e s = .next t) : s.Spares c t := by
  cases e with
  | unit => exact unitStep_spares h ht
  | complete =>
    obtain rfl := next_eq_next.1 ht
    obtain rfl := h.cfg
    exact fun x hx => State.nvmcComplete_outside h.inv.admitted (h.inv.inFlight_eq_false hx)
  | reset r =>
    obtain rfl := next_eq_next.1 ht
    obtain rfl := h.cfg
    exact fun x hx => State.hardReset_outside (h.inv.inFlight_eq_false hx) r
  | rcv | start | readDone | send | take | irq | takeIrq =>
    obtain ⟨hn, hd, -⟩ := runEvent_memory ht (by simp) (by simp) (by simp)
    exact .of_eq hn hd

/-! ## The statement -/

/-- Settles O51: the step is one move from a good state, which spares the cells and the draws that a stored byte is read from. -/
theorem bootRegionIsNeverWritten : Obligations.BootRegionIsNeverWritten := by
  unfold Obligations.BootRegionIsNeverWritten
  intro s t h ht a ha
  have hs : s.popScript.Sound s.cfg s.bufKnown := State.Sound.free (s := s) ⟨rfl, h, id⟩ rfl
  obtain ⟨hn, hd⟩ := runEvent_spares hs (step_eq_next.1 ht).2 a ha
  exact ⟨hn, State.storedByte_congr hn hd⟩

end Sys2Proof.Machine
end

section
/-! SUPPORT. The refusal of a configuration that breaks R7 (R188). -/

namespace Sys2Proof.Machine

/-- Settles O3: the constraints written out are those that `step` asks for first. -/
theorem brokenConfigurationIsRefused : Obligations.BrokenConfigurationIsRefused := by
  unfold Obligations.BrokenConfigurationIsRefused
  intro s h
  rw [← Config.admitted_iff] at h
  exact if_neg h

end Sys2Proof.Machine
end

section
/-! SUPPORT. Reset settled: the reset table from every state (R211), the page in flight and every other byte of program memory (R210),
and the invariant at the state a run begins in. -/

namespace Sys2Proof.Machine

variable {s : State}

/-! ## What is outstanding after a reset (R31, R32, R211) -/

/-- Only an operation of the block's works on a page of its own (R32). -/
theorem State.inFlight_of_noOwnOp (h : s.noOwnOp) (x : Nat) : s.inFlight x = false := by
  obtain h | h := h <;> rw [State.inFlight, h] <;> rfl

theorem State.pendAfterReset_of_page {op : NvmOp} {a : Nat} (hs : s.nvmPend = some op) (hop : op.page = some a)
    (r : PlatformReset) : s.pendAfterReset r = none := by
  rw [State.pendAfterReset, hs, Option.bind_some, hop]

theorem State.pendAfterReset_of_noOwnOp (h : s.noOwnOp) (r : PlatformReset) :
    s.pendAfterReset r = if r.foreignBusy then some .foreign else none := by
  obtain h | h := h <;> rw [State.pendAfterReset, h] <;> rfl

/-- A reset that strikes an operation of the block's leaves the controller idle (R211). -/
theorem State.hardReset_nvmBusy (h : ∃ a, s.nvmPend = some (.erase a) ∨ s.nvmPend = some (.write a)) (r : PlatformReset) :
    (s.hardReset r).nvmBusy = false := by
  have hpend : s.pendAfterReset r = none := by
    obtain ⟨a, h | h⟩ := h
    · exact State.pendAfterReset_of_page h rfl r
    · exact State.pendAfterReset_of_page h rfl r
  exact congrArg Option.isSome hpend

/-! ## Program memory after a reset (R210) -/

/-- A reset lists no cell of the page of the operation it strikes. -/
theorem State.read_nvmAfterReset_inside {x : Nat} (h : s.inFlight x = true) : Memory.read s.nvmAfterReset x = none := by
  unfold State.inFlight at h
  unfold State.nvmAfterReset
  cases hpage : s.nvmPend.bind NvmOp.page with
  | none => simp [hpage] at h
  | some a =>
    have hin : a ≤ x ∧ x < a + s.cfg.pageSize := by simpa [hpage] using h
    exact (Memory.read_forget s.nvm a s.cfg.pageSize x).trans (if_pos hin)

/-- The bytes of the page that was in flight are unspecified after a reset, and every other byte is its cell. -/
theorem State.hardReset_nvmByte (s : State) (r : PlatformReset) (x : Nat) :
    (s.hardReset r).nvmByte x = if s.inFlight x then none else Memory.read s.nvm x := by
  have hown : (s.hardReset r).noOwnOp := s.pendAfterReset_noOwn r
  rw [State.nvmByte, State.inFlight_of_noOwnOp hown, if_neg Bool.false_ne_true]
  cases hx : s.inFlight x
  · exact (State.hardReset_outside hx r).1
  · exact State.read_nvmAfterReset_inside hx

/-- A byte outside the page that was in flight holds what it held, its value known or not (log 5). -/
theorem State.hardReset_storedByte {x : Nat} (h : s.inFlight x = false) (r : PlatformReset) :
    (s.hardReset r).storedByte x = s.storedByte x :=
  State.storedByte_congr (State.hardReset_outside h r).1 (State.hardReset_outside h r).2

/-! ## The statements -/

/-- Settles O1: the next state is `hardReset`. Its sequencing and session registers, the platform's part and the emptied buffers are
the fields it sets; the controller and program memory are the lemmas above. -/
theorem resetReturnsTheBlockToHold : Obligations.ResetReturnsTheBlockToHold := by
  unfold Obligations.ResetReturnsTheBlockToHold
  intro s r
  refine ⟨s.hardReset r, rfl, rfl, rfl, rfl, rfl, rfl, rfl, rfl, rfl, rfl, rfl, rfl, rfl, ?busy, ?pend, ?buffers, ?bytes, ?stored⟩
  case busy => exact fun a h => State.hardReset_nvmBusy ⟨a, h⟩ r
  case pend => exact fun h => State.pendAfterReset_of_noOwnOp h r
  case buffers => exact fun i => ⟨Memory.read_nil i, Memory.read_nil i⟩
  case bytes => exact s.hardReset_nvmByte r
  case stored => exact fun _ h => State.hardReset_storedByte h r

/-- Settles O48: nothing is buffered, listed or outstanding, and `TADDR` is the first page of the application region, a page start
address below its end by R7. -/
theorem resetStateIsGood : Obligations.ResetStateIsGood := by
  unfold Obligations.ResetStateIsGood
  intro c hc
  obtain ⟨-, -, -, -, hbase, -, hlim, -⟩ := (Config.admitted_iff c).1 hc
  exact {
    admitted := hc
    memory := ⟨rfl, rfl, rfl, rfl, rfl, rfl, rfl, rfl⟩
    woff := rfl
    bcnt := .inr rfl
    taddr := ⟨hbase, le_rfl, hlim.le, fun h => nomatch h⟩
    programmer := ⟨.inl rfl, rfl⟩
    commit := .inl rfl
    done := ⟨fun h => (nomatch h), fun h => (nomatch h)⟩ }

end Sys2Proof.Machine
end
